-- ==== Sys2Proof/Word.lean ====
section
/-! DEFINITION. The words of the synthesis block.
The block reads two encoded inputs (30_encoding.md R80, R88) and computes in exact integers
(00_scope.md R16). -/

namespace Sys2Proof

/-- A command word `w`, delivered whole on a parallel port (R80, R81). -/
abbrev CommandWord := BitVec 32

/-- A MIDI byte `b` (R88). -/
abbrev MidiByte := BitVec 8

/-- A 4-bit field: an operation code, a channel operand, a MIDI type or a MIDI channel nibble
(R80, R89). -/
abbrev Nibble := BitVec 4

/-- A 7-bit operand: a MIDI data byte after masking, a velocity or a volume (R85, R92). -/
abbrev Data7 := BitVec 7

/-- The phase of an oscillator, `SAMPLE_BITS` = 14 bits (R7, R29). -/
abbrev Phase := BitVec 14

/-- An index into a waveform or curve table, and an entry of one: both are `TABLE_BITS` =
`VALUE_BITS` = 10 bits (R8, R61). -/
abbrev TableWord := BitVec 10

end Sys2Proof
end

