-- ==== Sys2Proof/Syntax.lean ====
section
/-! DEFINITION. The events of the block (00_scope.md R13) and its instructions: one constructor of
`Instr` for each row of spec/opcode_table.json, in the table's order. -/

namespace Sys2Proof

/-- `mp_state`, whether the next MIDI byte is read as a status byte or as a data byte
(10_state.md R21, R47). -/
inductive MpState where
  | idle
  | data
  deriving DecidableEq, Repr

/-- An input event (R13). `RESET`, `TICK` and `RX_OVERFLOW` are single wires with no encoding
(head of 30_encoding.md), so they are no rows of the opcode table (log entry 3). -/
inductive Event where
  /-- `RESET` (R280). -/
  | reset
  /-- `TICK` (R120, R256). -/
  | tick
  /-- `CMD(w)` (R80, R170). -/
  | cmd (w : CommandWord)
  /-- `MIDI(b)` (R88, R200). -/
  | midi (b : MidiByte)
  /-- `RX_OVERFLOW` (R253). -/
  | rxOverflow
  deriving DecidableEq, Repr

/-- One constructor for each row of spec/opcode_table.json. Operands are the fields the row's
encoding names; bits the rules ignore (R86, R92) are not part of an instruction (log entry 9).
A channel or voice operand may name no state: the command is then a no-op (R83, R84). -/
inductive Instr where
  /-- R171 -/
  | nop
  /-- R172 -/
  | enable (ch : Nibble)
  /-- R173 -/
  | disable (ch : Nibble)
  /-- R174 -/
  | setWaveform (ch : Nibble) (code : BitVec 16)
  /-- R175 -/
  | setVolume (ch : Nibble) (level : Data7)
  /-- R176 -/
  | voiceOn (ch : Nibble) (vc : BitVec 2)
  /-- R177 -/
  | voiceOff (ch : Nibble) (vc : BitVec 2)
  /-- R178 -/
  | voiceFrequency (ch : Nibble) (vc : BitVec 2) (freq : BitVec 16)
  /-- R179 -/
  | voiceModulation (ch : Nibble) (vc : BitVec 2) (depth : BitVec 16)
  /-- R180 -/
  | voiceVelocity (ch : Nibble) (vc : BitVec 2) (vel : Data7)
  /-- R181 -/
  | voicePitchBend (ch : Nibble) (vc : BitVec 2) (bend : BitVec 14)
  /-- R182 -/
  | updateAll
  /-- R183: the reserved operation codes 0xC to 0xF. -/
  | reservedCF (op : Nibble)
  /-- R208: the status byte 0x8s. -/
  | noteOff (sub : Nibble)
  /-- R209: 0x9s. -/
  | noteOn (sub : Nibble)
  /-- R210: 0xAs. -/
  | polyPressure (sub : Nibble)
  /-- R211: 0xBs. -/
  | controlChange (sub : Nibble)
  /-- R212: 0xCs. -/
  | programChange (sub : Nibble)
  /-- R213: 0xDs. -/
  | channelPressure (sub : Nibble)
  /-- R214: 0xEs. -/
  | pitchBend (sub : Nibble)
  /-- R215: 0xF0. -/
  | sysExclusive
  /-- R216: 0xF1. -/
  | sysMtcQuarterFrame
  /-- R217: 0xF2. -/
  | sysSongPosition
  /-- R218: 0xF3. -/
  | sysSongSelect
  /-- R219: 0xF4. -/
  | sysUndefinedF4
  /-- R220: 0xF5. -/
  | sysUndefinedF5
  /-- R221: 0xF6. -/
  | sysTuneRequest
  /-- R222: 0xF7. -/
  | sysEndExclusive
  /-- R223: 0xF8. -/
  | rtTimingClock
  /-- R224: 0xF9. -/
  | rtUndefinedF9
  /-- R225: 0xFA. -/
  | rtStart
  /-- R226: 0xFB. -/
  | rtContinue
  /-- R227: 0xFC. -/
  | rtStop
  /-- R228: 0xFD. -/
  | rtUndefinedFD
  /-- R229: 0xFE. -/
  | rtActiveSensing
  /-- R230: 0xFF. -/
  | rtSystemReset
  /-- R205: 0x00 in `IDLE`. -/
  | terminator
  /-- R204: 0x01 to 0x7F in `IDLE`. -/
  | strayData (d : Data7)
  /-- R206: any byte in `DATA`, after masking (R92). -/
  | dataByte (d : Data7)
  deriving DecidableEq, Repr

end Sys2Proof
end

