-- ==== Sys2Proof/WellFormed.lean ====
section
/-! DEFINITION. Which terms of `Instr` stand for an input the block can be given. Two rows of the
opcode table leave some values of their field to other rows; every other field takes every value. -/

namespace Sys2Proof

/-- A reserved command has an operation code in 0xC to 0xF (R87); a stray data byte is not 0x00,
which is the terminator (R88). -/
def Instr.wellFormed : Instr → Bool
  | .reservedCF op => decide (12 ≤ op.toNat)
  | .strayData d => decide (d ≠ 0)
  | _ => true

end Sys2Proof
end

