-- ==== Sys2Proof/Decode.lean ====
section
/-! DEFINITION. The decoder of 30_encoding.md and, after it, the encoder of the same tables. Every
32-bit word is a command (R87) and every byte has a meaning in every framing state (R97). -/

namespace Sys2Proof

/-- Why an input is not an instruction. -/
inductive Reject where
  /-- `RESET`, `TICK` and `RX_OVERFLOW` are single-wire events with no encoding. -/
  | singleWireEvent
  /-- Neither port has words of this width: commands are 32 bits, MIDI bytes 8. -/
  | noPortOfWidth
  deriving DecidableEq, Repr

/-- `op = w[31:28]` (R80). -/
def opField (w : CommandWord) : Nibble := w.extractLsb' 28 4

/-- `ch = w[27:24]` (R80, R83). -/
def chField (w : CommandWord) : Nibble := w.extractLsb' 24 4

/-- `vc = w[23:22]` (R80, R84). -/
def vcField (w : CommandWord) : BitVec 2 := w.extractLsb' 22 2

/-- `data = w[15:0]` (R80, R85). -/
def dataField (w : CommandWord) : BitVec 16 := w.extractLsb' 0 16

/-- `w[6:0]`, what `SET_VOLUME` and `VOICE_VELOCITY` read of `data` (R85). -/
def data7Field (w : CommandWord) : Data7 := w.extractLsb' 0 7

/-- `w[13:0]`, what `VOICE_PITCH_BEND` reads of `data` (R85). -/
def data14Field (w : CommandWord) : BitVec 14 := w.extractLsb' 0 14

/-- The row of R82 that `w[31:28]` selects, with the fields that row uses (R98); the rest of the
word is ignored (R86). -/
def decodeCommand (w : CommandWord) : Instr :=
  match opField w with
  | 0x0#4 => .nop
  | 0x1#4 => .enable (chField w)
  | 0x2#4 => .disable (chField w)
  | 0x3#4 => .setWaveform (chField w) (dataField w)
  | 0x4#4 => .setVolume (chField w) (data7Field w)
  | 0x5#4 => .voiceOn (chField w) (vcField w)
  | 0x6#4 => .voiceOff (chField w) (vcField w)
  | 0x7#4 => .voiceFrequency (chField w) (vcField w) (dataField w)
  | 0x8#4 => .voiceModulation (chField w) (vcField w) (dataField w)
  | 0x9#4 => .voiceVelocity (chField w) (vcField w) (data7Field w)
  | 0xA#4 => .voicePitchBend (chField w) (vcField w) (data14Field w)
  | 0xB#4 => .updateAll
  | op => .reservedCF op

/-- `type = b[7:4]` (R89). -/
def typeField (b : MidiByte) : Nibble := b.extractLsb' 4 4

/-- `sub = b[3:0]` (R89). -/
def subField (b : MidiByte) : Nibble := b.extractLsb' 0 4

/-- `d = b & 0x7F` (R92). -/
def maskData (b : MidiByte) : Data7 := b.extractLsb' 0 7

/-- A system message by its low nibble (R91). -/
def decodeSystem (sub : Nibble) : Instr :=
  match sub with
  | 0x0#4 => .sysExclusive
  | 0x1#4 => .sysMtcQuarterFrame
  | 0x2#4 => .sysSongPosition
  | 0x3#4 => .sysSongSelect
  | 0x4#4 => .sysUndefinedF4
  | 0x5#4 => .sysUndefinedF5
  | 0x6#4 => .sysTuneRequest
  | 0x7#4 => .sysEndExclusive
  | 0x8#4 => .rtTimingClock
  | 0x9#4 => .rtUndefinedF9
  | 0xA#4 => .rtStart
  | 0xB#4 => .rtContinue
  | 0xC#4 => .rtStop
  | 0xD#4 => .rtUndefinedFD
  | 0xE#4 => .rtActiveSensing
  | _ => .rtSystemReset

/-- A byte in `IDLE` (R88, R98): by its high nibble a status byte, else the terminator or a stray
data byte. -/
def decodeIdleByte (b : MidiByte) : Instr :=
  match typeField b with
  | 0x8#4 => .noteOff (subField b)
  | 0x9#4 => .noteOn (subField b)
  | 0xA#4 => .polyPressure (subField b)
  | 0xB#4 => .controlChange (subField b)
  | 0xC#4 => .programChange (subField b)
  | 0xD#4 => .channelPressure (subField b)
  | 0xE#4 => .pitchBend (subField b)
  | 0xF#4 => decodeSystem (subField b)
  | _ => if b = 0 then .terminator else .strayData (maskData b)

/-- A MIDI byte in the framing state `m` (R88): in `DATA` every byte is a data byte. -/
def decodeMidi (m : MpState) (b : MidiByte) : Instr :=
  match m with
  | .idle => decodeIdleByte b
  | .data => .dataByte (maskData b)

/-- The instruction an event carries in the framing state `m`; the framing state does not matter
to a command. -/
def decode (m : MpState) : Event → Except Reject Instr
  | .cmd w => .ok (decodeCommand w)
  | .midi b => .ok (decodeMidi m b)
  | .reset => .error .singleWireEvent
  | .tick => .error .singleWireEvent
  | .rxOverflow => .error .singleWireEvent

/-- The event that carries a word of `nbits` bits: the width names the port (log entry 14). -/
def wordEvent (nbits w : Nat) : Except Reject Event :=
  if nbits = 32 then .ok (.cmd (BitVec.ofNat 32 w))
  else if nbits = 8 then .ok (.midi (BitVec.ofNat 8 w))
  else .error .noPortOfWidth

/-- The instruction the decoder reads from an opcode-table word of `nbits` bits, in the framing
state `IDLE`, which is the one after reset (log entry 14). -/
def decodeTableWord (nbits w : Nat) : Option Instr :=
  match wordEvent nbits w with
  | .ok e => (decode .idle e).toOption
  | .error _ => none

/-- The number of data bytes that follow a status byte of type `t` and low nibble `s`
(R90, R91); the status byte alone tells it (R94). -/
def dataCount (t s : Nibble) : Fin 3 :=
  match t with
  | 0x8#4 => 2
  | 0x9#4 => 2
  | 0xA#4 => 2
  | 0xB#4 => 2
  | 0xC#4 => 1
  | 0xD#4 => 1
  | 0xE#4 => 2
  | 0xF#4 =>
    match s with
    | 0x1#4 => 1
    | 0x2#4 => 2
    | 0x3#4 => 1
    | _ => 0
  | _ => 0

/-- `enc(op, ch, vc, data)` (R80): ignored bits are written as 0 (R86). -/
def enc (op ch : Nibble) (vc : BitVec 2) (data : BitVec 16) : CommandWord :=
  op ++ ch ++ vc ++ 0#6 ++ data

/-- The status byte of type `t` and low nibble `s` (R89). -/
def statusByteOf (t s : Nibble) : MidiByte := t ++ s

/-- A data byte as a source sends it, bit 7 clear (R92). -/
def dataByteOf (d : Data7) : MidiByte := 0#1 ++ d

/-- The event that carries an instruction (R82, R90, R91, R99). -/
def encode : Instr → Event
  | .nop => .cmd (enc 0x0 0 0 0)
  | .enable ch => .cmd (enc 0x1 ch 0 0)
  | .disable ch => .cmd (enc 0x2 ch 0 0)
  | .setWaveform ch code => .cmd (enc 0x3 ch 0 code)
  | .setVolume ch level => .cmd (enc 0x4 ch 0 (level.setWidth 16))
  | .voiceOn ch vc => .cmd (enc 0x5 ch vc 0)
  | .voiceOff ch vc => .cmd (enc 0x6 ch vc 0)
  | .voiceFrequency ch vc freq => .cmd (enc 0x7 ch vc freq)
  | .voiceModulation ch vc depth => .cmd (enc 0x8 ch vc depth)
  | .voiceVelocity ch vc vel => .cmd (enc 0x9 ch vc (vel.setWidth 16))
  | .voicePitchBend ch vc bend => .cmd (enc 0xA ch vc (bend.setWidth 16))
  | .updateAll => .cmd (enc 0xB 0 0 0)
  | .reservedCF op => .cmd (enc op 0 0 0)
  | .noteOff sub => .midi (statusByteOf 0x8 sub)
  | .noteOn sub => .midi (statusByteOf 0x9 sub)
  | .polyPressure sub => .midi (statusByteOf 0xA sub)
  | .controlChange sub => .midi (statusByteOf 0xB sub)
  | .programChange sub => .midi (statusByteOf 0xC sub)
  | .channelPressure sub => .midi (statusByteOf 0xD sub)
  | .pitchBend sub => .midi (statusByteOf 0xE sub)
  | .sysExclusive => .midi (statusByteOf 0xF 0x0)
  | .sysMtcQuarterFrame => .midi (statusByteOf 0xF 0x1)
  | .sysSongPosition => .midi (statusByteOf 0xF 0x2)
  | .sysSongSelect => .midi (statusByteOf 0xF 0x3)
  | .sysUndefinedF4 => .midi (statusByteOf 0xF 0x4)
  | .sysUndefinedF5 => .midi (statusByteOf 0xF 0x5)
  | .sysTuneRequest => .midi (statusByteOf 0xF 0x6)
  | .sysEndExclusive => .midi (statusByteOf 0xF 0x7)
  | .rtTimingClock => .midi (statusByteOf 0xF 0x8)
  | .rtUndefinedF9 => .midi (statusByteOf 0xF 0x9)
  | .rtStart => .midi (statusByteOf 0xF 0xA)
  | .rtContinue => .midi (statusByteOf 0xF 0xB)
  | .rtStop => .midi (statusByteOf 0xF 0xC)
  | .rtUndefinedFD => .midi (statusByteOf 0xF 0xD)
  | .rtActiveSensing => .midi (statusByteOf 0xF 0xE)
  | .rtSystemReset => .midi (statusByteOf 0xF 0xF)
  | .terminator => .midi 0x00
  | .strayData d => .midi (dataByteOf d)
  | .dataByte d => .midi (dataByteOf d)

/-- The framing state in which the decoder reads an instruction: `DATA` for a data byte, `IDLE`
for every other MIDI byte; for a command it does not matter and `IDLE` stands (R88). -/
def framingOf : Instr → MpState
  | .dataByte _ => .data
  | _ => .idle

end Sys2Proof
end

