-- ==== Sys2Proof/Config.lean ====
section
/-! DEFINITION. The configuration: the parameters of 00_scope.md R6 to R12 at the values of the one
configuration the spec fixes (R3), and the tables (R11), whose contents the spec leaves open.
No event changes any of it (10_state.md R50). -/

namespace Sys2Proof.Config

/-- `NUM_CHANNELS` (R6). -/
def numChannels : Nat := 7

/-- `MAX_CHANNEL_VOICES` (R6). -/
def maxChannelVoices : Nat := 4

/-- How many channels are melodic: indices 0 to 3 (R6). -/
abbrev melodicChannels : Nat := 4

/-- How many channels are auxiliary: indices 4 to 6 (R6). -/
abbrev auxiliaryChannels : Nat := 3

/-- The voices of a melodic channel (R6). -/
abbrev melodicVoices : Nat := 4

/-- The voices of an auxiliary channel (R6). -/
abbrev auxiliaryVoices : Nat := 1

/-- `NV(c)`, the number of voices of channel `c`, for `c < numChannels` (R6). -/
def nv (c : Nat) : Nat := if c < melodicChannels then melodicVoices else auxiliaryVoices

/-- `SAMPLE_BITS` (R7). -/
def sampleBits : Nat := 14

/-- `MASK` = 2^`SAMPLE_BITS` − 1 (R7). -/
def mask : Nat := 2 ^ sampleBits - 1

/-- `TABLE_BITS` (R8). -/
def tableBits : Nat := 10

/-- `RES_DIFF` = `SAMPLE_BITS` − `TABLE_BITS` (R8). -/
def resDiff : Nat := sampleBits - tableBits

/-- `ENV_SHIFT_A` (R9). -/
def envShiftA : Nat := 17

/-- `ENV_SHIFT_D` (R9). -/
def envShiftD : Nat := 10

/-- `ATTACK_SCALAR` (R9). -/
def attackScalar : Int := 1016

/-- `BEND_SHIFT` (R9). -/
def bendShift : Nat := 15

/-- `MOD_SHIFT` (R9). -/
def modShift : Nat := 26

/-- `OUT_SHIFT` (R9). -/
def outShift : Nat := 10

/-- `ENV_RANGE` (R10). -/
def envRange : Int := 1023

/-- `ENV_FLOOR` (R10). -/
def envFloor : Int := 8

/-- `SUSTAIN_LEVEL` (R10). -/
def sustainLevel : Int := 512

/-- `BEND_CENTER` (R10). -/
def bendCenter : Nat := 8192

/-- `BEND_SCALAR` (R10; the spec's open parameter at its default, 93 M5; log entry 6). -/
def bendScalar : Int := 1

/-- `MOD_STEP` (R10; the spec's open parameter at its default, 93 M6; log entry 6). -/
def modStep : Nat := 1

/-- `SQ_MIN` (R10). -/
def sqMin : Int := 0

/-- `SQ_MAX` (R10). -/
def sqMax : Int := 1023

/-- `VOL_SHIFT` (R10). -/
def volShift : Nat := 7

/-- `TICK_RATE` in Hz (R12). No rule of the model reads it. -/
def tickRate : Nat := 16384

/-- The seven read-only waveform and curve spaces (20_memory.md R60). There is no square table. -/
inductive Table where
  | sine
  | triangle
  | ramp
  | noise
  | attackCurve
  | decayCurve
  | modCurve
  deriving DecidableEq, Repr

/-- The contents of the seven tables: 1024 entries of 10 bits each (R8, R61). The spec gives no
values (R11, 93 M3), so this constant has no body and every statement holds for all contents
(log entry 5). -/
opaque tableContents : Table → TableWord → TableWord

/-- The contents of `NOTE_FREQ`: 128 phase increments of 16 bits (R11, R63, 93 M4). No body, as
above (log entry 5). -/
opaque noteFreq : Data7 → BitVec 16

end Sys2Proof.Config
end

