-- ==== Sys2Proof/Machine/State.lean ====
section
/-! DEFINITION. The state of the block as plain data (10_state.md), its value after `RESET`
(70_reset_and_hazards.md R280 to R283), and the reasons a step can stop. -/

namespace Sys2Proof.Machine

/-- `ADSR` (00_scope.md R18): the four states of an envelope; there is no other (R35). -/
inductive Adsr where
  | attack
  | decay
  | sustain
  | release
  deriving DecidableEq, Repr

/-- `WAVE` (R18): the five waveform codes. A waveform field never holds another code (R24). -/
inductive Wave where
  | sine
  | triangle
  | ramp
  | square
  | noise
  deriving DecidableEq, Repr

/-- One voice `V[c][v]` (R28), the fields of R29 to R39. -/
structure Voice where
  /-- The phase accumulator (R29). -/
  count : Phase
  /-- The phase increment per tick (R30). -/
  frequency : BitVec 16
  /-- The bend value, neutral at 8192 (R31). -/
  pitchBend : BitVec 14
  /-- The LFO phase (R32). -/
  modCount : TableWord
  /-- The modulation depth (R33). -/
  mod : BitVec 16
  /-- Whether the note is held (R34). -/
  gate : Bool
  /-- The state of the envelope machine (R35). -/
  adsrState : Adsr
  /-- The envelope's tick counter (R36). -/
  envCount : BitVec 15
  /-- The envelope value, an integer that is never truncated (R37). -/
  env : Int
  /-- The start point of DECAY and RELEASE (R38). -/
  envStart : Int
  /-- The velocity (R39). -/
  velocity : Data7
  deriving DecidableEq, Repr

/-- The registers of one channel that do not belong to a voice (R23 to R25, R44, R45). -/
structure ChannelRegs where
  /-- Whether the tick runs the channel (R23). -/
  enable : Bool
  /-- The waveform all its voices read (R24). -/
  waveform : Wave
  /-- The channel volume (R25). -/
  volume : Data7
  /-- The output port `out_val[c]` (R44). -/
  outVal : BitVec 10
  /-- The output port's enable `out_en[c]` (R45). -/
  outEn : Bool
  deriving DecidableEq, Repr

/-- A channel with `nv` voices (R22). `num_voices` is `nv` itself, hardwired (R26); a voice index
from `nv` on names no state (R40). -/
structure Channel (nv : Nat) extends ChannelRegs where
  /-- The voices the channel owns (R28). -/
  voices : Vector Voice nv
  deriving DecidableEq, Repr

/-- The MIDI framing state (R47). -/
structure Framing where
  /-- Whether the next byte is a status byte or a data byte. -/
  mpState : MpState
  /-- The high nibble of the status byte of the message being assembled. -/
  mpType : Nibble
  /-- Its low nibble. -/
  mpSub : Nibble
  /-- How many data bytes are still expected, 0 to 2. -/
  mpNeed : Fin 3
  /-- The first data byte, once received. -/
  mpD1 : Data7
  deriving DecidableEq, Repr

/-- The whole machine. Channels 0 to 3 are melodic and channels 4 to 6 auxiliary (R6, R22). -/
structure State where
  /-- Channels 0 to 3. -/
  melodic : Vector (Channel Config.melodicVoices) Config.melodicChannels
  /-- Channels 4 to 6. -/
  auxiliary : Vector (Channel Config.auxiliaryVoices) Config.auxiliaryChannels
  /-- The MIDI framing state (R47). -/
  framing : Framing
  /-- Set by `RX_OVERFLOW`, cleared only by `RESET` (R49). -/
  halted : Bool
  /-- The MODEL's own field: the events the host will deliver, oldest first. It stands for the
  environment that chooses the order of events (R13; log entry 1). -/
  inputs : List Event
  deriving DecidableEq, Repr

/-- Why a step stops. -/
inductive Fault where
  /-- The block is halted and this is no `RESET`: it has no step (R255). Raised by every meaning and
  by the events `TICK` and `RX_OVERFLOW` while `halted` = 1, and by a step with no `RESET` to come.
  SAFE: the spec gives the event no step there. -/
  | halted
  deriving DecidableEq, Repr

/-- Why an instruction has no meaning here. -/
inductive Refusal where
  /-- The arm of `exec` has no meaning yet. No arm raises it: every instruction is modelled.
  SAFE. -/
  | notModelled (mnemonic : String)
  deriving DecidableEq, Repr

/-- The outcome of an event or of an instruction. -/
abbrev Outcome := Host.Outcome State Fault Refusal

/-- A voice after reset (R282). -/
def Voice.reset : Voice where
  count := 0
  frequency := 0
  pitchBend := 8192
  modCount := 0
  mod := 0
  gate := false
  adsrState := .attack
  envCount := 0
  env := 0
  envStart := 0
  velocity := 0

/-- The registers of a channel after reset (R281, R283). -/
def ChannelRegs.reset : ChannelRegs where
  enable := false
  waveform := .sine
  volume := 127
  outVal := 0
  outEn := false

/-- A channel of `nv` voices after reset. -/
def Channel.reset (nv : Nat) : Channel nv where
  toChannelRegs := ChannelRegs.reset
  voices := Vector.replicate nv Voice.reset

/-- The framing state after reset (R283). -/
def Framing.reset : Framing where
  mpState := .idle
  mpType := 0
  mpSub := 0
  mpNeed := 0
  mpD1 := 0

/-- The machine right after `RESET` (R280): every field of 10_state.md at its reset value, and no
event offered yet (log entry 2). -/
def State.reset : State where
  melodic := Vector.replicate Config.melodicChannels (Channel.reset Config.melodicVoices)
  auxiliary := Vector.replicate Config.auxiliaryChannels (Channel.reset Config.auxiliaryVoices)
  framing := Framing.reset
  halted := false
  inputs := []

end Sys2Proof.Machine
end

