-- ==== Sys2Proof/Machine/Operands.lean ====
section
/-! DEFINITION. Every operand form of the block: channel and voice selectors, waveform codes, MIDI
channels, the 14-bit bend value, the reading of the tables, and the shift of R16. -/

namespace Sys2Proof.Machine

/-- The arithmetic right shift of R16: `a >> n = floor(a / 2^n)` for every integer `a`, negative
included (`Int` division by a positive number rounds down). -/
def asr (a : Int) (n : Nat) : Int := a / 2 ^ n

/-- `valid_ch` of R170: the channel operand names a channel (R83). -/
def validChannel (ch : Nibble) : Bool := decide (ch.toNat < Config.numChannels)

/-- `valid_vc` of R170: the voice operand names a voice of the channel (R84). -/
def validVoice (ch : Nibble) (vc : BitVec 2) : Bool :=
  validChannel ch && decide (vc.toNat < Config.nv ch.toNat)

/-- The waveform a `WAVE` code names (R18); no other 16-bit value is one (R85, R174). -/
def waveOfCode (code : BitVec 16) : Option Wave :=
  match code with
  | 0#16 => some .sine
  | 1#16 => some .triangle
  | 2#16 => some .ramp
  | 3#16 => some .square
  | 4#16 => some .noise
  | _ => none

/-- Whether a channel may be given a waveform: `NOISE` is not configured on a melodic channel, one
with more than one voice (R174). -/
def waveAllowed (ch : Nibble) (w : Wave) : Bool :=
  !(decide (w = .noise) && decide (1 < Config.nv ch.toNat))

/-- The channel a MIDI nibble names: itself when it is one, else channel 0 (R203, R254). -/
def midiChannel (sub : Nibble) : Nat := if sub.toNat < Config.numChannels then sub.toNat else 0

/-- The bend value of a `PITCH_BEND` message: the first data byte holds its low 7 bits
(R65, R93). -/
def bendValue (d1 d2 : Data7) : BitVec 14 := d2 ++ d1

/-- `TableRead` (R62) of a waveform or curve table; the index is in range by its type. -/
def tableRead (t : Config.Table) (i : TableWord) : Int := (Config.tableContents t i).toNat

/-- The table index of a phase or envelope counter, `n >> RES_DIFF` (R131, R138); it is in
0..1023 for `n` in 0..`MASK`. -/
def tableIndex (n : Nat) : TableWord := BitVec.ofNat 10 (n >>> Config.resDiff)

/-- The payload of a MIDI message, its data bytes in order (R94). -/
inductive Payload where
  | none
  | one (d : Data7)
  | two (d1 d2 : Data7)
  deriving DecidableEq, Repr

end Sys2Proof.Machine
end

