-- ==== Sys2Proof/Machine/Ops.lean ====
section
/-! DEFINITION. The named operations on the state: reading and changing a channel or a voice, and
what takes the place of exception entry and return here, the halt and `RESET` (60_exceptions.md
R250, R253, R255, R260). -/

namespace Sys2Proof.Machine

/-- Every entry changed. -/
def mapVec {α β : Type} {n : Nat} (f : α → β) (v : Vector α n) : Vector β n :=
  Vector.ofFn fun i => f v[i]

/-- Entry `k` changed; nothing when there is no entry `k`. -/
def modifyVec {α : Type} {n : Nat} (v : Vector α n) (k : Nat) (f : α → α) : Vector α n :=
  Vector.ofFn fun i => if i.val = k then f v[i] else v[i]

/-- `C[c].active_voices`, the mixing divisor, hardwired to `NV(c)` (R27). -/
def Channel.activeVoices {nv : Nat} (_ : Channel nv) : Nat := nv

/-- The registers `C[c]` of channel `c`, output port included; none when there is no channel `c`
(R22). -/
def State.regs? (s : State) (c : Nat) : Option ChannelRegs :=
  if c < Config.melodicChannels then s.melodic[c]?.map (·.toChannelRegs)
  else s.auxiliary[c - Config.melodicChannels]?.map (·.toChannelRegs)

/-- The voice `V[c][v]`; none when there is no such voice (R26, R40). -/
def State.voice? (s : State) (c v : Nat) : Option Voice :=
  if c < Config.melodicChannels then s.melodic[c]?.bind (·.voices[v]?)
  else s.auxiliary[c - Config.melodicChannels]?.bind (·.voices[v]?)

/-- The observation `(out_val[c], out_en[c])` (R14). -/
def State.output? (s : State) (c : Nat) : Option (BitVec 10 × Bool) :=
  (s.regs? c).map fun r => (r.outVal, r.outEn)

/-- Channel `c` changed, whatever its number of voices. -/
def State.modifyChannel (s : State) (c : Nat) (f : (nv : Nat) → Channel nv → Channel nv) : State :=
  if c < Config.melodicChannels then { s with melodic := modifyVec s.melodic c (f _) }
  else { s with auxiliary := modifyVec s.auxiliary (c - Config.melodicChannels) (f _) }

/-- The registers of channel `c` changed. -/
def State.modifyRegs (s : State) (c : Nat) (f : ChannelRegs → ChannelRegs) : State :=
  s.modifyChannel c fun _ ch => { ch with toChannelRegs := f ch.toChannelRegs }

/-- Voice `v` of channel `c` changed. -/
def State.modifyVoice (s : State) (c v : Nat) (f : Voice → Voice) : State :=
  s.modifyChannel c fun _ ch => { ch with voices := modifyVec ch.voices v f }

/-- An event that changes the state by `f` when the block is not halted and has no step when it is
(R255). -/
def whenRunning (f : State → State) (s : State) : Outcome :=
  if s.halted then .fault .halted else .next (f s)

/-- The effect of `RX_OVERFLOW` (R253). -/
def haltBlock (s : State) : State := { s with halted := true }

/-- The effect of `RESET` (R280): every field of the block at its reset value; the events still to
be delivered are the host's and stay. -/
def resetBlock (s : State) : State := { State.reset with inputs := s.inputs }

/-- A command on the registers of a channel: a no-op when the selector is invalid (R170, R251). -/
def onChannel (ch : Nibble) (f : ChannelRegs → ChannelRegs) (s : State) : State :=
  if validChannel ch then s.modifyRegs ch.toNat f else s

/-- A command on a voice: a no-op when the selector is invalid (R170, R251). -/
def onVoice (ch : Nibble) (vc : BitVec 2) (f : Voice → Voice) (s : State) : State :=
  if validVoice ch vc then s.modifyVoice ch.toNat vc.toNat f else s

/-- Sets `frequency` (R178). -/
def Voice.setFrequency (freq : BitVec 16) (V : Voice) : Voice := { V with frequency := freq }

/-- Sets `mod` (R179). -/
def Voice.setModulation (depth : BitVec 16) (V : Voice) : Voice := { V with mod := depth }

/-- Sets `velocity` (R180). -/
def Voice.setVelocity (vel : Data7) (V : Voice) : Voice := { V with velocity := vel }

/-- Sets `pitch_bend` (R181). -/
def Voice.setPitchBend (bend : BitVec 14) (V : Voice) : Voice := { V with pitchBend := bend }

/-- Sets `waveform` (R174). -/
def ChannelRegs.setWaveform (w : Wave) (r : ChannelRegs) : ChannelRegs := { r with waveform := w }

/-- Sets `volume` (R175). -/
def ChannelRegs.setVolume (level : Data7) (r : ChannelRegs) : ChannelRegs :=
  { r with volume := level }

end Sys2Proof.Machine
end

