-- ==== Sys2Proof/Machine/Flags.lean ====
section
/-! DEFINITION. The status flags of the block (10_state.md R46): `enable` with `out_en`, `gate` and
`adsr_state`. There are no condition codes. `halted` is written in Ops.lean. -/

namespace Sys2Proof.Machine

/-- `ENABLE` and `DISABLE` write `enable` and `out_en` together (R45, R172, R173); `out_val` keeps
its value. -/
def ChannelRegs.setEnable (on : Bool) (r : ChannelRegs) : ChannelRegs :=
  { r with enable := on, outEn := on }

/-- The effect of `VOICE_ON` on its voice: five fields; `env`, `env_start`, `frequency`,
`pitch_bend`, `mod` and `velocity` stay (R176). -/
def Voice.start (V : Voice) : Voice :=
  { V with gate := true, count := 0, modCount := 0, envCount := 0, adsrState := .attack }

/-- The effect of `VOICE_OFF` on its voice: only `gate` (R177). -/
def Voice.stop (V : Voice) : Voice := { V with gate := false }

/-- The code of an envelope state (R18). No port reads it. -/
def adsrCode : Adsr → BitVec 2
  | .attack => 0
  | .decay => 1
  | .sustain => 2
  | .release => 3

/-- The code a waveform register holds (R18, R24). No port reads it. -/
def waveCode : Wave → BitVec 3
  | .sine => 0
  | .triangle => 1
  | .ramp => 2
  | .square => 3
  | .noise => 4

/-- Whether a voice is silent on a tick, tested on the state at the start of its step (R140). -/
def Voice.silent (V : Voice) : Bool := !V.gate && decide (V.adsrState ≠ .attack)

end Sys2Proof.Machine
end

