-- ==== Sys2Proof/Machine/Envelope.lean ====
section
/-! DEFINITION. The envelope generator of a voice (40_synthesis.md R125 to R133). -/

namespace Sys2Proof.Machine

/-- `env_count` after the increment of this tick, as an integer: R125, R128 and R130 compare it with
`MASK` before it is stored (R36). -/
def Voice.nextEnvCount (V : Voice) : Nat := V.envCount.toNat + 1

/-- The attack target, recomputed on every ATTACK tick (R126). -/
def attackTarget (velocity : Data7) : Int :=
  asr (Config.envRange * Config.attackScalar * velocity.toNat) Config.envShiftA + Config.envFloor

/-- The attack envelope value at counter `n` (R127). -/
def attackEnv (velocity : Data7) (n : Nat) : Int :=
  asr (tableRead .attackCurve (tableIndex n) * Config.envRange * velocity.toNat) Config.envShiftA
    + Config.envFloor

/-- The decay curve between `start` and `target` at counter `n`, with a signed difference
(R128, R130). -/
def decayEnv (start target : Int) (n : Nat) : Int :=
  asr (tableRead .decayCurve (tableIndex n) * (start - target)) Config.envShiftD + target

/-- The transition of an exhausted counter: the next state, the counter at 0 and the start point at
the target of the stage that ends; `env` is not written (R133). -/
def Voice.enterStage (V : Voice) (next : Adsr) (target : Int) : Voice :=
  { V with adsrState := next, envCount := 0, envStart := target }

/-- A tick inside a stage: the counter advances and `env` is written. -/
def Voice.stayInStage (V : Voice) (env : Int) : Voice :=
  { V with envCount := BitVec.ofNat 15 V.nextEnvCount, env := env }

/-- ATTACK (R125). -/
def Voice.attackStep (V : Voice) : Voice :=
  if Config.mask < V.nextEnvCount then V.enterStage .decay (attackTarget V.velocity)
  else V.stayInStage (attackEnv V.velocity V.nextEnvCount)

/-- DECAY (R128). -/
def Voice.decayStep (V : Voice) : Voice :=
  if Config.mask < V.nextEnvCount then V.enterStage .sustain Config.sustainLevel
  else V.stayInStage (decayEnv V.envStart Config.sustainLevel V.nextEnvCount)

/-- SUSTAIN: only a cleared gate changes anything; `env` and `env_start` stay (R129, R132). -/
def Voice.sustainStep (V : Voice) : Voice :=
  if V.gate then V else { V with adsrState := .release, envCount := 0 }

/-- RELEASE, towards 0 (R130). -/
def Voice.releaseStep (V : Voice) : Voice :=
  if Config.mask < V.nextEnvCount then V.enterStage .attack 0
  else V.stayInStage (decayEnv V.envStart 0 V.nextEnvCount)

/-- The envelope step of a tick (R125 to R130). -/
def Voice.envelopeStep (V : Voice) : Voice :=
  match V.adsrState with
  | .attack => V.attackStep
  | .decay => V.decayStep
  | .sustain => V.sustainStep
  | .release => V.releaseStep

end Sys2Proof.Machine
end

