-- ==== Sys2Proof/Machine/Oscillator.lean ====
section
/-! DEFINITION. The oscillator of a voice (pitch bend, LFO modulation, phase accumulator) and the
waveform lookup multiplexer (40_synthesis.md R134 to R141). -/

namespace Sys2Proof.Machine

/-- The pitch-bend delta `db`: signed, rounded down, 0 at the centre (R134). -/
def Voice.bendDelta (V : Voice) : Int :=
  if V.pitchBend.toNat = Config.bendCenter then 0
  else asr (V.frequency.toNat * Config.bendScalar * ((V.pitchBend.toNat : Int) - Config.bendCenter))
    Config.bendShift

/-- The LFO phase advances only while the depth is not 0 (R135). -/
def Voice.modStep (V : Voice) : Voice :=
  if V.mod = 0 then V
  else { V with modCount := BitVec.ofNat 10 (V.modCount.toNat + Config.modStep) }

/-- The modulation delta `dm` at the LFO phase just advanced; 0 while the depth is 0
(R135, R136). -/
def Voice.modDelta (V : Voice) : Int :=
  if V.mod = 0 then 0
  else asr (V.frequency.toNat * tableRead .modCurve V.modCount * V.mod.toNat) Config.modShift

/-- `inc`, what the pitch step returns, read after the LFO phase has advanced (R136). -/
def Voice.phaseIncrement (V : Voice) : Int := V.frequency.toNat + V.bendDelta + V.modDelta

/-- The phase advance: the exact sum modulo 2^`SAMPLE_BITS`, the Euclidean remainder (R137). -/
def Voice.phaseStep (V : Voice) : Voice :=
  { V with count := BitVec.ofInt 14 (V.count.toNat + V.phaseIncrement) }

/-- The square wave, a comparator on the full phase (R139). -/
def squareSample (count : Phase) : Int :=
  if count.toNat < Config.mask >>> 1 then Config.sqMin else Config.sqMax

/-- The waveform multiplexer (R138). -/
def waveSample (w : Wave) (count : Phase) : Int :=
  match w with
  | .sine => tableRead .sine (tableIndex count.toNat)
  | .triangle => tableRead .triangle (tableIndex count.toNat)
  | .ramp => tableRead .ramp (tableIndex count.toNat)
  | .square => squareSample count
  | .noise => tableRead .noise (tableIndex count.toNat)

/-- What a tick does to the fields of a voice, in the order of R124: envelope, LFO, phase. Every
part runs whether or not the voice is silent. -/
def Voice.advance (V : Voice) : Voice := V.envelopeStep.modStep.phaseStep

/-- What a voice that was `before` at the start of its step and is `after` at its end contributes:
0 when silent (R140), else the sample at the new phase scaled by the new envelope (R141). -/
def voiceOutput (w : Wave) (before after : Voice) : Int :=
  if before.silent then 0 else asr (waveSample w after.count * after.env) Config.outShift

/-- The voice step: the voice after the tick and what it contributes to the mix (R124). -/
def voiceStep (w : Wave) (V : Voice) : Voice × Int := (V.advance, voiceOutput w V V.advance)

end Sys2Proof.Machine
end

