-- ==== Sys2Proof/Machine/Mixer.lean ====
section
/-! DEFINITION. The voice mixer, the channel output multiplexer and the tick (40_synthesis.md R120 to
R123, R142 to R147). -/

namespace Sys2Proof.Machine

/-- The sum over the voices of a channel, silent ones adding 0 (R142). -/
def Channel.mixSum {nv : Nat} (C : Channel nv) : Int :=
  (mapVec (fun V => (voiceStep C.waveform V).2) C.voices).toList.sum

/-- The level a channel drives: the sum divided by `active_voices`, rounded down, then scaled by the
volume (R123, R143, R144). -/
def Channel.level {nv : Nat} (C : Channel nv) : Int :=
  asr (C.mixSum / C.activeVoices * C.volume.toNat) Config.volShift

/-- The channel step (R123): an enabled channel steps every voice and drives its output register,
`val mod 2^10` (R145, R147); a disabled one is skipped entirely (R146). -/
def Channel.step {nv : Nat} (C : Channel nv) : Channel nv :=
  if C.enable then
    { C with
      outVal := BitVec.ofInt 10 C.level
      voices := mapVec (fun V => (voiceStep C.waveform V).1) C.voices }
  else C

/-- The tick (R120). No channel's step reads another's fields, so the order of channels and voices
cannot be observed (R122; log entry 12). -/
def tick (s : State) : State :=
  { s with
    melodic := mapVec Channel.step s.melodic
    auxiliary := mapVec Channel.step s.auxiliary }

end Sys2Proof.Machine
end

