-- ==== Sys2Proof/Machine/Control.lean ====
section
/-! DEFINITION. The meanings of the control commands (41_control.md R170 to R184). Each is one event:
it has no step while the block is halted, and an invalid selector makes it a no-op. -/

namespace Sys2Proof.Machine

/-- `NOP` (R171). -/
def execNop (s : State) : Outcome := whenRunning (fun s => s) s

/-- `ENABLE` (R172). -/
def execEnable (ch : Nibble) (s : State) : Outcome :=
  whenRunning (onChannel ch (ChannelRegs.setEnable true)) s

/-- `DISABLE` (R173). -/
def execDisable (ch : Nibble) (s : State) : Outcome :=
  whenRunning (onChannel ch (ChannelRegs.setEnable false)) s

/-- What `SET_WAVEFORM` does: a code that names no waveform, or one the channel may not have, changes
nothing; no phase, envelope or gate is reset (R174). -/
def selectWaveform (ch : Nibble) (code : BitVec 16) (s : State) : State :=
  match waveOfCode code with
  | none => s
  | some w => if waveAllowed ch w then onChannel ch (ChannelRegs.setWaveform w) s else s

/-- `SET_WAVEFORM` (R174). -/
def execSetWaveform (ch : Nibble) (code : BitVec 16) (s : State) : Outcome :=
  whenRunning (selectWaveform ch code) s

/-- `SET_VOLUME` (R175). -/
def execSetVolume (ch : Nibble) (level : Data7) (s : State) : Outcome :=
  whenRunning (onChannel ch (ChannelRegs.setVolume level)) s

/-- `VOICE_ON` (R176). -/
def execVoiceOn (ch : Nibble) (vc : BitVec 2) (s : State) : Outcome :=
  whenRunning (onVoice ch vc Voice.start) s

/-- `VOICE_OFF` (R177). -/
def execVoiceOff (ch : Nibble) (vc : BitVec 2) (s : State) : Outcome :=
  whenRunning (onVoice ch vc Voice.stop) s

/-- `VOICE_FREQUENCY` (R178). -/
def execVoiceFrequency (ch : Nibble) (vc : BitVec 2) (freq : BitVec 16) (s : State) : Outcome :=
  whenRunning (onVoice ch vc (Voice.setFrequency freq)) s

/-- `VOICE_MODULATION` (R179). -/
def execVoiceModulation (ch : Nibble) (vc : BitVec 2) (depth : BitVec 16) (s : State) : Outcome :=
  whenRunning (onVoice ch vc (Voice.setModulation depth)) s

/-- `VOICE_VELOCITY` (R180). -/
def execVoiceVelocity (ch : Nibble) (vc : BitVec 2) (vel : Data7) (s : State) : Outcome :=
  whenRunning (onVoice ch vc (Voice.setVelocity vel)) s

/-- `VOICE_PITCH_BEND` (R181). -/
def execVoicePitchBend (ch : Nibble) (vc : BitVec 2) (bend : BitVec 14) (s : State) : Outcome :=
  whenRunning (onVoice ch vc (Voice.setPitchBend bend)) s

/-- `UPDATE_ALL`: exactly one tick (R182). -/
def execUpdateAll (s : State) : Outcome := whenRunning tick s

/-- A reserved command: no effect, whatever its code and its other bits (R87, R183). -/
def execReservedCF (_op : Nibble) (s : State) : Outcome := whenRunning (fun s => s) s

end Sys2Proof.Machine
end

