-- ==== Sys2Proof/Machine/Midi.lean ====
section
/-! DEFINITION. The MIDI status-byte classifier, framing and dispatch (42_midi.md R200 to R232), and
the meanings of the MIDI bytes. The meaning of a status byte is what the EVENT of that byte does;
the message is dispatched by the meaning of its last data byte (R207). -/

namespace Sys2Proof.Machine

/-- `NOTE_OFF` at its last byte (R208): the writes of `VOICE_OFF`, `VOICE_FREQUENCY` and
`VOICE_VELOCITY`, in that order, on voice 0. -/
def dispatchNoteOff (sub : Nibble) (key vel : Data7) (s : State) : State :=
  s.modifyVoice (midiChannel sub) 0 fun V =>
    ((V.stop).setFrequency (Config.noteFreq key)).setVelocity vel

/-- `NOTE_ON` at its last byte (R209): the writes of `VOICE_ON`, `VOICE_FREQUENCY` and
`VOICE_VELOCITY`, in that order, on voice 0. Velocity 0 is no exception. -/
def dispatchNoteOn (sub : Nibble) (key vel : Data7) (s : State) : State :=
  s.modifyVoice (midiChannel sub) 0 fun V =>
    ((V.start).setFrequency (Config.noteFreq key)).setVelocity vel

/-- `PITCH_BEND` at its last byte (R214). -/
def dispatchPitchBend (sub : Nibble) (d1 d2 : Data7) (s : State) : State :=
  s.modifyVoice (midiChannel sub) 0 (Voice.setPitchBend (bendValue d1 d2))

/-- Dispatch of a complete message (R207): notes and pitch bend write a voice; poly pressure, control
change, program change, channel pressure and every system message are framed and not dispatched
(R210 to R213, R215 to R230). -/
def dispatch (t sub : Nibble) (p : Payload) (s : State) : State :=
  match t, p with
  | 0x8#4, .two key vel => dispatchNoteOff sub key vel s
  | 0x9#4, .two key vel => dispatchNoteOn sub key vel s
  | 0xE#4, .two d1 d2 => dispatchPitchBend sub d1 d2 s
  | _, _ => s

/-- A status byte in `IDLE` (R201): a message without data bytes is dispatched at once, any other
is opened. `mp_d1` keeps its value. -/
def openMessage (t sub : Nibble) (s : State) : State :=
  if dataCount t sub = 0 then dispatch t sub .none s
  else
    { s with
      framing :=
        { s.framing with mpState := .data, mpType := t, mpSub := sub, mpNeed := dataCount t sub } }

/-- The framing after a message's last byte: `IDLE` with nothing expected; the other fields keep
their values (R206). -/
def closeMessage (s : State) : State :=
  { s with framing := { s.framing with mpState := .idle, mpNeed := 0 } }

/-- A data byte in `DATA` (R206). -/
def takeData (d : Data7) (s : State) : State :=
  if s.framing.mpNeed = 2 then { s with framing := { s.framing with mpD1 := d, mpNeed := 1 } }
  else
    let payload :=
      if dataCount s.framing.mpType s.framing.mpSub = 2 then Payload.two s.framing.mpD1 d
      else Payload.one d
    closeMessage (dispatch s.framing.mpType s.framing.mpSub payload s)

/-- What a byte does that does `inIdle` in `IDLE` and carries the data bits `d`: in `DATA` every byte
is taken as data, a status byte too (R200, R231; log entry 8). -/
def byteEffect (d : Data7) (inIdle : State → State) (s : State) : State :=
  match s.framing.mpState with
  | .idle => inIdle s
  | .data => takeData d s

/-- The event of such a byte (R200). -/
def byteEvent (d : Data7) (inIdle : State → State) (s : State) : Outcome :=
  whenRunning (byteEffect d inIdle) s

/-- The event of a status byte (R201, R231). -/
def statusEvent (t sub : Nibble) (s : State) : Outcome :=
  byteEvent (maskData (statusByteOf t sub)) (openMessage t sub) s

/-- `NOTE_OFF` status byte (R208). -/
def execNoteOff (sub : Nibble) (s : State) : Outcome := statusEvent 0x8 sub s

/-- `NOTE_ON` status byte (R209). -/
def execNoteOn (sub : Nibble) (s : State) : Outcome := statusEvent 0x9 sub s

/-- `POLY_PRESSURE` status byte (R210). -/
def execPolyPressure (sub : Nibble) (s : State) : Outcome := statusEvent 0xA sub s

/-- `CONTROL_CHANGE` status byte (R211). -/
def execControlChange (sub : Nibble) (s : State) : Outcome := statusEvent 0xB sub s

/-- `PROGRAM_CHANGE` status byte (R212). -/
def execProgramChange (sub : Nibble) (s : State) : Outcome := statusEvent 0xC sub s

/-- `CHANNEL_PRESSURE` status byte (R213). -/
def execChannelPressure (sub : Nibble) (s : State) : Outcome := statusEvent 0xD sub s

/-- `PITCH_BEND` status byte (R214). -/
def execPitchBend (sub : Nibble) (s : State) : Outcome := statusEvent 0xE sub s

/-- `SYS_EXCLUSIVE` (R215). -/
def execSysExclusive (s : State) : Outcome := statusEvent 0xF 0x0 s

/-- `SYS_MTC_QUARTER_FRAME` (R216). -/
def execSysMtcQuarterFrame (s : State) : Outcome := statusEvent 0xF 0x1 s

/-- `SYS_SONG_POSITION` (R217). -/
def execSysSongPosition (s : State) : Outcome := statusEvent 0xF 0x2 s

/-- `SYS_SONG_SELECT` (R218). -/
def execSysSongSelect (s : State) : Outcome := statusEvent 0xF 0x3 s

/-- `SYS_UNDEFINED_F4` (R219). -/
def execSysUndefinedF4 (s : State) : Outcome := statusEvent 0xF 0x4 s

/-- `SYS_UNDEFINED_F5` (R220). -/
def execSysUndefinedF5 (s : State) : Outcome := statusEvent 0xF 0x5 s

/-- `SYS_TUNE_REQUEST` (R221). -/
def execSysTuneRequest (s : State) : Outcome := statusEvent 0xF 0x6 s

/-- `SYS_END_EXCLUSIVE` (R222). -/
def execSysEndExclusive (s : State) : Outcome := statusEvent 0xF 0x7 s

/-- `RT_TIMING_CLOCK` (R223). -/
def execRtTimingClock (s : State) : Outcome := statusEvent 0xF 0x8 s

/-- `RT_UNDEFINED_F9` (R224). -/
def execRtUndefinedF9 (s : State) : Outcome := statusEvent 0xF 0x9 s

/-- `RT_START` (R225). -/
def execRtStart (s : State) : Outcome := statusEvent 0xF 0xA s

/-- `RT_CONTINUE` (R226). -/
def execRtContinue (s : State) : Outcome := statusEvent 0xF 0xB s

/-- `RT_STOP` (R227). -/
def execRtStop (s : State) : Outcome := statusEvent 0xF 0xC s

/-- `RT_UNDEFINED_FD` (R228). -/
def execRtUndefinedFD (s : State) : Outcome := statusEvent 0xF 0xD s

/-- `RT_ACTIVE_SENSING` (R229). -/
def execRtActiveSensing (s : State) : Outcome := statusEvent 0xF 0xE s

/-- `RT_SYSTEM_RESET`: it does not reset the block (R230). -/
def execRtSystemReset (s : State) : Outcome := statusEvent 0xF 0xF s

/-- The terminator: a no-op in `IDLE` (R205); in `DATA` the byte 0x00 is the data value 0 (R95). -/
def execTerminator (s : State) : Outcome := byteEvent 0 (fun s => s) s

/-- A stray data byte: a no-op in `IDLE` (R204). -/
def execStrayData (d : Data7) (s : State) : Outcome := byteEvent d (fun s => s) s

/-- A data byte (R206). In `IDLE`, where the decoder never reads one, it does nothing (log
entry 8). -/
def execDataByte (d : Data7) (s : State) : Outcome := byteEvent d (fun s => s) s

end Sys2Proof.Machine
end

