-- ==== Sys2Proof/Machine/Dispatch.lean ====
section
/-! DEFINITION. The meaning of every instruction: one arm for each constructor of `Instr`. -/

namespace Sys2Proof.Machine

def exec (i : Instr) (s : State) : Host.Outcome State Fault Refusal :=
  match i with
  -- control commands (41_control.md)
  | .nop => Sys2Proof.Machine.execNop s
  | .enable ch => Sys2Proof.Machine.execEnable ch s
  | .disable ch => Sys2Proof.Machine.execDisable ch s
  | .setWaveform ch code => Sys2Proof.Machine.execSetWaveform ch code s
  | .setVolume ch level => Sys2Proof.Machine.execSetVolume ch level s
  | .voiceOn ch vc => Sys2Proof.Machine.execVoiceOn ch vc s
  | .voiceOff ch vc => Sys2Proof.Machine.execVoiceOff ch vc s
  | .voiceFrequency ch vc freq => Sys2Proof.Machine.execVoiceFrequency ch vc freq s
  | .voiceModulation ch vc depth => Sys2Proof.Machine.execVoiceModulation ch vc depth s
  | .voiceVelocity ch vc vel => Sys2Proof.Machine.execVoiceVelocity ch vc vel s
  | .voicePitchBend ch vc bend => Sys2Proof.Machine.execVoicePitchBend ch vc bend s
  | .updateAll => Sys2Proof.Machine.execUpdateAll s
  | .reservedCF op => Sys2Proof.Machine.execReservedCF op s
  -- channel messages (42_midi.md section 2)
  | .noteOff sub => Sys2Proof.Machine.execNoteOff sub s
  | .noteOn sub => Sys2Proof.Machine.execNoteOn sub s
  | .polyPressure sub => Sys2Proof.Machine.execPolyPressure sub s
  | .controlChange sub => Sys2Proof.Machine.execControlChange sub s
  | .programChange sub => Sys2Proof.Machine.execProgramChange sub s
  | .channelPressure sub => Sys2Proof.Machine.execChannelPressure sub s
  | .pitchBend sub => Sys2Proof.Machine.execPitchBend sub s
  -- system messages (42_midi.md section 3)
  | .sysExclusive => Sys2Proof.Machine.execSysExclusive s
  | .sysMtcQuarterFrame => Sys2Proof.Machine.execSysMtcQuarterFrame s
  | .sysSongPosition => Sys2Proof.Machine.execSysSongPosition s
  | .sysSongSelect => Sys2Proof.Machine.execSysSongSelect s
  | .sysUndefinedF4 => Sys2Proof.Machine.execSysUndefinedF4 s
  | .sysUndefinedF5 => Sys2Proof.Machine.execSysUndefinedF5 s
  | .sysTuneRequest => Sys2Proof.Machine.execSysTuneRequest s
  | .sysEndExclusive => Sys2Proof.Machine.execSysEndExclusive s
  | .rtTimingClock => Sys2Proof.Machine.execRtTimingClock s
  | .rtUndefinedF9 => Sys2Proof.Machine.execRtUndefinedF9 s
  | .rtStart => Sys2Proof.Machine.execRtStart s
  | .rtContinue => Sys2Proof.Machine.execRtContinue s
  | .rtStop => Sys2Proof.Machine.execRtStop s
  | .rtUndefinedFD => Sys2Proof.Machine.execRtUndefinedFD s
  | .rtActiveSensing => Sys2Proof.Machine.execRtActiveSensing s
  | .rtSystemReset => Sys2Proof.Machine.execRtSystemReset s
  -- the other bytes (42_midi.md section 1)
  | .terminator => Sys2Proof.Machine.execTerminator s
  | .strayData d => Sys2Proof.Machine.execStrayData d s
  | .dataByte d => Sys2Proof.Machine.execDataByte d s

end Sys2Proof.Machine
end

