-- ==== Sys2Proof/Machine/Events.lean ====
section
/-! DEFINITION. What an input event does (00_scope.md R13), and how the events the host delivers reach
the block one at a time (20_memory.md R72, 60_exceptions.md R255, R259). -/

namespace Sys2Proof.Machine

/-- One event applied to the block (R13). A command or MIDI byte runs the instruction it carries in
the present framing state (R98). -/
def takeEvent (e : Event) (s : State) : Outcome :=
  match e with
  | .reset => .next (resetBlock s)
  | .tick => whenRunning tick s
  | .cmd w => exec (decodeCommand w) s
  | .midi b => exec (decodeMidi s.framing.mpState b) s
  | .rxOverflow => whenRunning haltBlock s

/-- The events after the first `RESET`, if there is one. -/
def afterReset : List Event → Option (List Event)
  | [] => none
  | .reset :: es => some es
  | _ :: es => afterReset es

/-- A halted block: only `RESET` has a step (R255). The events the host delivers before it have
none and are lost; with no `RESET` to come the block is stuck (log entry 4). -/
def haltedStep (s : State) : Outcome :=
  match afterReset s.inputs with
  | some es => takeEvent .reset { s with inputs := es }
  | none => .fault .halted

/-- A running block takes the oldest event. With no event offered it holds its state (R264). -/
def runningStep (s : State) : Outcome :=
  match s.inputs with
  | [] => .next s
  | e :: es => takeEvent e { s with inputs := es }

/-- The block's next step. -/
def nextStep (s : State) : Outcome := if s.halted then haltedStep s else runningStep s

/-- The state with an event delivered before all others. -/
def deliver (e : Event) (s : State) : State := { s with inputs := e :: s.inputs }

end Sys2Proof.Machine
end

