-- ==== Sys2Proof/Machine/Step.lean ====
section
/-! DEFINITION. One step of the machine, and the delivery of an opcode-table word as its next
event. -/

namespace Sys2Proof.Machine

/-- One step: one event the host delivers, or none (R13, R72). -/
def step (s : State) : Host.Outcome State Fault Refusal := nextStep s

/-- The state in which the host delivers, as the very next event, the opcode-table word `w` of
`nbits` bits: a 32-bit word on the command port, an 8-bit word on the MIDI port (log entry 2). A
word of any other width has no port and is not delivered. -/
def State.withFetchWord (s : State) (nbits w : Nat) : State :=
  match wordEvent nbits w with
  | .ok e => deliver e s
  | .error _ => s

end Sys2Proof.Machine
end

