-- ==== Sys2Proof/Safety.lean ====
section
/-! DEFINITION. The terms claims are written in: what a good state is, what "nothing else changed"
means, and the wave codes and stages in the spec's own numbers. -/

namespace Sys2Proof.Machine

/-- What holds of a voice between events: the ranges of R36 to R38, and RELEASE only with a cleared
gate (R129, R130), with `env_start` at the sustain level in SUSTAIN and RELEASE (R128, R130). -/
structure Voice.Inv (V : Voice) : Prop where
  envCount_le : V.envCount.toNat ≤ 16383
  env_nonneg : 0 ≤ V.env
  env_le : V.env ≤ 1022
  envStart_nonneg : 0 ≤ V.envStart
  envStart_le : V.envStart ≤ 1015
  release_gate : V.adsrState = .release → V.gate = false
  sustain_start : V.adsrState = .sustain → V.envStart = 512
  release_start : V.adsrState = .release → V.envStart = 512

/-- What holds of the registers of channel `c` between events: `out_en` equals `enable` (R45), a
melodic channel has no noise (R24), and the output never exceeds 1013 (R44, R147). -/
structure ChannelRegs.Inv (c : Nat) (r : ChannelRegs) : Prop where
  outEn_eq : r.outEn = r.enable
  waveform_legal : c < 4 → r.waveform ≠ .noise
  outVal_le : r.outVal.toNat ≤ 1013

/-- What holds of the framing between events (R47, R201, R206): nothing is expected in `IDLE`, and in
`DATA` at least one byte and at most what the status byte asked for. -/
structure Framing.Inv (f : Framing) : Prop where
  idle_need : f.mpState = .idle → f.mpNeed = 0
  data_need : f.mpState = .data → 1 ≤ f.mpNeed ∧ f.mpNeed ≤ dataCount f.mpType f.mpSub

/-- The invariant of the block. -/
structure State.Inv (s : State) : Prop where
  regs : ∀ c r, s.regs? c = some r → r.Inv c
  voices : ∀ c v V, s.voice? c v = some V → V.Inv
  framing : s.framing.Inv

/-- From `s` to `t` the registers of channel `c` change by `f` and nothing else of the block does,
the framing aside. -/
structure ChangesOnlyRegs (s t : State) (c : Nat) (f : ChannelRegs → ChannelRegs) : Prop where
  changed : t.regs? c = (s.regs? c).map f
  otherRegs : ∀ c', c' ≠ c → t.regs? c' = s.regs? c'
  voices : ∀ c' v', t.voice? c' v' = s.voice? c' v'
  halted : t.halted = s.halted
  inputs : t.inputs = s.inputs

/-- From `s` to `t` voice `v` of channel `c` changes by `f` and nothing else of the block does, the
framing aside. -/
structure ChangesOnlyVoice (s t : State) (c v : Nat) (f : Voice → Voice) : Prop where
  changed : t.voice? c v = (s.voice? c v).map f
  otherVoices : ∀ c' v', ¬(c' = c ∧ v' = v) → t.voice? c' v' = s.voice? c' v'
  regs : ∀ c', t.regs? c' = s.regs? c'
  halted : t.halted = s.halted
  inputs : t.inputs = s.inputs

/-- From `s` to `t` no channel and no voice changes, nor the halt flag nor the events to come; the
framing may. -/
structure ChangesOnlyFraming (s t : State) : Prop where
  regs : ∀ c, t.regs? c = s.regs? c
  voices : ∀ c v, t.voice? c v = s.voice? c v
  halted : t.halted = s.halted
  inputs : t.inputs = s.inputs

/-- Two states agree on channel `c`: its registers, output port included, and its voices. -/
structure AgreeOnChannel (c : Nat) (s t : State) : Prop where
  regs : s.regs? c = t.regs? c
  voices : ∀ v, s.voice? c v = t.voice? c v

/-- The waveforms in the order of their codes 0 to 4 (R18). -/
def waveCodes : List Wave := [.sine, .triangle, .ramp, .square, .noise]

/-- The state after each in the cycle of R41. -/
def Adsr.following : Adsr → Adsr
  | .attack => .decay
  | .decay => .sustain
  | .sustain => .release
  | .release => .attack

/-- Whether an event is an `UPDATE_ALL` command (R182). -/
def carriesUpdateAll : Event → Bool
  | .cmd w => decide (decodeCommand w = .updateAll)
  | _ => false

/-- A run of `k` steps of the machine. -/
abbrev run (k : Nat) (s : State) : Outcome := Sys2Proof.core.run k s

end Sys2Proof.Machine
end

