-- ==== Sys2Proof/Certificates/Slice0/Obligations.lean ====
section
/-! DEFINITION. The statements for the provers, each in the spec's own numbers. `regs?` and `voice?`
are the model's reads of one channel and of one voice; they answer none exactly where the spec has no
such channel or voice. -/

open Sys2Proof
open Sys2Proof.Machine

/-! ### What the machine holds, and reset -/

/-- R26: voice `v` of channel `c` exists if and only if `v < NV(c)`, in every state. -/
def Obligations.VoicesExistExactlyBelowNV : Prop :=
  ∀ (s : State) (c v : Nat), c < 7 →
    ((s.voice? c v).isSome = true ↔ v < (if c < 4 then 4 else 1))

/-- R281: what reset leaves in every channel; the seven channels are there, with their hardwired
numbers of voices. -/
def Obligations.ResetChannelValues : Prop :=
  (∀ C : Channel 4, C.activeVoices = 4) ∧ (∀ C : Channel 1, C.activeVoices = 1) ∧
  ∀ c, c < 7 → ∃ r, State.reset.regs? c = some r ∧
    r.enable = false ∧ r.waveform = .sine ∧ r.volume = 127 ∧
    ∀ v, (State.reset.voice? c v).isSome = true ↔ v < (if c < 4 then 4 else 1)

/-- R282: what reset leaves in every voice. -/
def Obligations.ResetVoiceValues : Prop :=
  ∀ c v V, State.reset.voice? c v = some V →
    V.count = 0 ∧ V.frequency = 0 ∧ V.pitchBend = 8192 ∧ V.modCount = 0 ∧ V.mod = 0 ∧
    V.gate = false ∧ V.adsrState = .attack ∧ V.envCount = 0 ∧ V.env = 0 ∧ V.envStart = 0 ∧
    V.velocity = 0

/-- The values of R283: outputs, halt flag and framing after reset. -/
def Obligations.ResetOutputsAndFraming : Prop :=
  (∀ c, c < 7 → State.reset.output? c = some (0, false)) ∧
  State.reset.halted = false ∧
  State.reset.framing.mpState = .idle ∧ State.reset.framing.mpNeed = 0 ∧
  State.reset.framing.mpType = 0 ∧ State.reset.framing.mpSub = 0 ∧ State.reset.framing.mpD1 = 0

/-! ### Steps and events -/

/-- A step runs the decoded instruction: when the oldest event decodes, in the present framing state,
to an instruction, the step is that instruction's meaning on the state from which the event has been
taken. That the events come from a list is the model's choice (log entry 1). -/
def Obligations.StepRunsDecodedInstruction : Prop :=
  ∀ (s : State) (e : Event) (es : List Event) (i : Instr),
    s.halted = false → s.inputs = e :: es → decode s.framing.mpState e = .ok i →
    step s = exec i { s with inputs := es }

/-- A word that is delivered on its port is the instruction the very next step runs (the model's
choice, log entry 2). -/
def Obligations.DeliveredWordRunsNext : Prop :=
  ∀ (s : State) (nbits w : Nat) (i : Instr),
    s.halted = false → s.framing.mpState = .idle → decodeTableWord nbits w = some i →
    step (s.withFetchWord nbits w) = exec i s

/-- R280: `RESET` has a step in every state, halted or not, and it sets every field of the block to
its reset value; the events still to come are the host's (log entry 1). -/
def Obligations.ResetStepsInEveryState : Prop :=
  ∀ (s : State) (es : List Event), s.inputs = .reset :: es →
    step s = .next { State.reset with inputs := es }

/-- R253: `RX_OVERFLOW` sets `halted`, and only that. -/
def Obligations.OverflowSetsHaltedOnly : Prop :=
  ∀ (s : State) (es : List Event), s.halted = false → s.inputs = .rxOverflow :: es →
    ∃ t, step s = .next t ∧ t.halted = true ∧ t.framing = s.framing ∧ t.inputs = es ∧
      (∀ c, t.regs? c = s.regs? c) ∧ ∀ c v, t.voice? c v = s.voice? c v

/-- While halted no instruction and no event but `RESET` has a step (R255). That "no step" is the fault
`halted`, and that the machine's step is that fault whenever no `RESET` is to come, also with no event
offered at all (where R264 has the block hold its state), is the model's choice (log entry 4). -/
def Obligations.HaltedBlockHasNoStepButReset : Prop :=
  ∀ s : State, s.halted = true →
    (∀ i, exec i s = .fault .halted) ∧
    (∀ e, e ≠ .reset → takeEvent e s = .fault .halted) ∧
    takeEvent .reset s = .next { State.reset with inputs := s.inputs } ∧
    (.reset ∉ s.inputs → step s = .fault .halted)

/-- The model's choice (log entry 4): the events delivered to a halted block before the next `RESET`
have no step, and the next step is that `RESET`. -/
def Obligations.HaltedBlockResumesAtNextReset : Prop :=
  ∀ (s : State) (lost es : List Event), s.halted = true → .reset ∉ lost →
    s.inputs = lost ++ .reset :: es → step s = .next { State.reset with inputs := es }

/-- R264: between events the block holds its state (a step with no event offered is the model's, log
entry 1). -/
def Obligations.BlockHoldsItsStateBetweenEvents : Prop :=
  ∀ s : State, s.halted = false → s.inputs = [] → step s = .next s

/-! ### Encodings -/

/-- Decode and encode agree on every well-formed instruction, in the framing state in which it is
read. -/
def Obligations.DecodeOfEncodeIsIdentity : Prop :=
  ∀ i : Instr, i.wellFormed = true → decode (framingOf i) (encode i) = .ok i

/-- Every 32-bit word and every byte decodes, in every framing state, to a well-formed instruction
(R87, R97). -/
def Obligations.DecoderIsTotalAndWellFormed : Prop :=
  ∀ m : MpState,
    (∀ w, ∃ i, decode m (.cmd w) = .ok i ∧ i.wellFormed = true) ∧
    ∀ b, ∃ i, decode m (.midi b) = .ok i ∧ i.wellFormed = true

/-- R86: encoding a decoded command word gives the word back with the bits its row ignores at 0, and
two words that differ only in ignored bits decode to the same instruction. -/
def Obligations.CommandDecodingReadsExactlyTheUsedBits : Prop :=
  ∀ w : CommandWord, ∀ used,
    [0xF0000000#32, 0xFF000000#32, 0xFF000000#32, 0xFF00FFFF#32, 0xFF00007F#32, 0xFFC00000#32,
      0xFFC00000#32, 0xFFC0FFFF#32, 0xFFC0FFFF#32, 0xFFC0007F#32, 0xFFC03FFF#32, 0xF0000000#32,
      0xF0000000#32, 0xF0000000#32, 0xF0000000#32, 0xF0000000#32][w.toNat / 2 ^ 28]? = some used →
    encode (decodeCommand w) = .cmd (w &&& used) ∧
    ∀ w' : CommandWord, w' &&& used = w &&& used → decodeCommand w' = decodeCommand w

/-- R85: what each command reads of the data operand `w[15:0]`, always unsigned: 16, 7 or 14 low
bits; a waveform code above 4 makes `SET_WAVEFORM` a no-op. -/
def Obligations.DataOperandsAreTheStatedLowBits : Prop :=
  ∀ (w : CommandWord) (op : Nat) (ch : Nibble) (vc : BitVec 2), op = w.toNat / 2 ^ 28 →
    ch = BitVec.ofNat 4 (w.toNat / 2 ^ 24 % 16) → vc = BitVec.ofNat 2 (w.toNat / 2 ^ 22 % 4) →
    (op = 3 → decodeCommand w = .setWaveform ch (BitVec.ofNat 16 (w.toNat % 2 ^ 16)) ∧
      ∀ s : State, s.halted = false → 4 < w.toNat % 2 ^ 16 →
        exec (decodeCommand w) s = .next s) ∧
    (op = 4 → decodeCommand w = .setVolume ch (BitVec.ofNat 7 (w.toNat % 2 ^ 7))) ∧
    (op = 7 → decodeCommand w = .voiceFrequency ch vc (BitVec.ofNat 16 (w.toNat % 2 ^ 16))) ∧
    (op = 8 → decodeCommand w = .voiceModulation ch vc (BitVec.ofNat 16 (w.toNat % 2 ^ 16))) ∧
    (op = 9 → decodeCommand w = .voiceVelocity ch vc (BitVec.ofNat 7 (w.toNat % 2 ^ 7))) ∧
    (op = 10 → decodeCommand w = .voicePitchBend ch vc (BitVec.ofNat 14 (w.toNat % 2 ^ 14)))

/-- In `IDLE` a byte is read whole: encoding what it decodes to gives the byte back (R88, R98). -/
def Obligations.IdleByteDecodingLosesNothing : Prop :=
  ∀ b : MidiByte, encode (decodeMidi .idle b) = .midi b

/-- Words written out from the spec's encodings decode to the instructions they stand for
(41_control.md and 95_test_vectors.md section 2.5, 2.6). -/
def Obligations.KnownWordsDecode : Prop :=
  decodeTableWord 32 0x26000000 = some (.disable 6) ∧
  decodeTableWord 32 0x30000002 = some (.setWaveform 0 2) ∧
  decodeTableWord 32 0x51C00000 = some (.voiceOn 1 3) ∧
  decodeTableWord 32 0x700001B8 = some (.voiceFrequency 0 0 440) ∧
  decodeTableWord 32 0xA000FFFF = some (.voicePitchBend 0 0 16383) ∧
  decodeTableWord 32 0xD1234567 = some (.reservedCF 0xD) ∧
  decodeTableWord 8 0x93 = some (.noteOn 3) ∧
  decodeTableWord 8 0xF1 = some .sysMtcQuarterFrame ∧
  decodeTableWord 8 0x24 = some (.strayData 0x24) ∧
  decodeTableWord 8 0x00 = some .terminator

/-! ### Control commands -/

/-- R171, R183: `NOP` and the reserved commands change nothing, whatever the other bits of their
words. -/
def Obligations.NopAndReservedChangeNothing : Prop :=
  ∀ (s : State) (op : Nibble), s.halted = false →
    exec .nop s = .next s ∧ exec (.reservedCF op) s = .next s ∧
    (∀ w : CommandWord, w.toNat / 2 ^ 28 = 0 → decodeCommand w = .nop) ∧
    (∀ w : CommandWord, 12 ≤ w.toNat / 2 ^ 28 → w.toNat / 2 ^ 28 = op.toNat →
      decodeCommand w = .reservedCF op)

/-- R172: `ENABLE` writes `enable` and `out_en` of its channel and nothing else, and is a no-op on an
invalid channel. -/
def Obligations.EnableSetsEnableAndOutEn : Prop :=
  ∀ (s : State) (ch : Nibble), s.halted = false →
    (∀ w : CommandWord, w.toNat / 2 ^ 28 = 1 → w.toNat / 2 ^ 24 % 16 = ch.toNat →
      decodeCommand w = .enable ch) ∧
    ∃ t, exec (.enable ch) s = .next t ∧
    t.framing = s.framing ∧ (7 ≤ ch.toNat → t = s) ∧
    (ch.toNat < 7 →
      ChangesOnlyRegs s t ch.toNat fun r => { r with enable := true, outEn := true })

/-- R173: `DISABLE` clears `enable` and `out_en` of its channel; `out_val` and the voices keep their
values. -/
def Obligations.DisableClearsEnableAndOutEn : Prop :=
  ∀ (s : State) (ch : Nibble), s.halted = false →
    (∀ w : CommandWord, w.toNat / 2 ^ 28 = 2 → w.toNat / 2 ^ 24 % 16 = ch.toNat →
      decodeCommand w = .disable ch) ∧
    ∃ t, exec (.disable ch) s = .next t ∧
    t.framing = s.framing ∧ (7 ≤ ch.toNat → t = s) ∧
    (ch.toNat < 7 →
      ChangesOnlyRegs s t ch.toNat fun r => { r with enable := false, outEn := false })

/-- R174: `SET_WAVEFORM` stores a code 0 to 4 (but not noise on a melodic channel) and is a no-op on
every other code and on an invalid channel. -/
def Obligations.SetWaveformStoresLegalCodesOnly : Prop :=
  ∀ (s : State) (ch : Nibble) (code : BitVec 16), s.halted = false →
    (∀ w : CommandWord, w.toNat / 2 ^ 28 = 3 → w.toNat / 2 ^ 24 % 16 = ch.toNat →
      w.toNat % 2 ^ 16 = code.toNat → decodeCommand w = .setWaveform ch code) ∧
    ∃ t, exec (.setWaveform ch code) s = .next t ∧ t.framing = s.framing ∧
    ((7 ≤ ch.toNat ∨ 4 < code.toNat ∨ (code.toNat = 4 ∧ ch.toNat < 4)) → t = s) ∧
    ∀ w, ch.toNat < 7 → waveCodes[code.toNat]? = some w → (w = .noise → 4 ≤ ch.toNat) →
      ChangesOnlyRegs s t ch.toNat fun r => { r with waveform := w }

/-- R175: `SET_VOLUME` stores its 7-bit level in its channel and changes nothing else. -/
def Obligations.SetVolumeChangesOnlyVolume : Prop :=
  ∀ (s : State) (ch : Nibble) (level : Data7), s.halted = false →
    (∀ w : CommandWord, w.toNat / 2 ^ 28 = 4 → w.toNat / 2 ^ 24 % 16 = ch.toNat →
      w.toNat % 2 ^ 7 = level.toNat → decodeCommand w = .setVolume ch level) ∧
    ∃ t, exec (.setVolume ch level) s = .next t ∧ t.framing = s.framing ∧ (7 ≤ ch.toNat → t = s) ∧
      (ch.toNat < 7 → ChangesOnlyRegs s t ch.toNat fun r => { r with volume := level })

/-- R176: `VOICE_ON` writes five fields of its voice and nothing else. -/
def Obligations.VoiceOnRestartsTheAttack : Prop :=
  ∀ (s : State) (ch : Nibble) (vc : BitVec 2), s.halted = false →
    (∀ w : CommandWord, w.toNat / 2 ^ 28 = 5 → w.toNat / 2 ^ 24 % 16 = ch.toNat →
      w.toNat / 2 ^ 22 % 4 = vc.toNat → decodeCommand w = .voiceOn ch vc) ∧
    ∃ t, exec (.voiceOn ch vc) s = .next t ∧ t.framing = s.framing ∧
      if ch.toNat < 7 ∧ vc.toNat < (if ch.toNat < 4 then 4 else 1) then
        ChangesOnlyVoice s t ch.toNat vc.toNat fun V =>
          { V with gate := true, count := 0, modCount := 0, envCount := 0, adsrState := .attack }
      else t = s

/-- R177: `VOICE_OFF` clears `gate` of its voice and nothing else. -/
def Obligations.VoiceOffClearsOnlyGate : Prop :=
  ∀ (s : State) (ch : Nibble) (vc : BitVec 2), s.halted = false →
    (∀ w : CommandWord, w.toNat / 2 ^ 28 = 6 → w.toNat / 2 ^ 24 % 16 = ch.toNat →
      w.toNat / 2 ^ 22 % 4 = vc.toNat → decodeCommand w = .voiceOff ch vc) ∧
    ∃ t, exec (.voiceOff ch vc) s = .next t ∧ t.framing = s.framing ∧
      if ch.toNat < 7 ∧ vc.toNat < (if ch.toNat < 4 then 4 else 1) then
        ChangesOnlyVoice s t ch.toNat vc.toNat fun V => { V with gate := false }
      else t = s

/-- R178 to R181: the four setters of a voice write their one field and nothing else. -/
def Obligations.VoiceSettersWriteOneField : Prop :=
  ∀ (s : State) (ch : Nibble) (vc : BitVec 2) (d : BitVec 16) (vel : Data7) (bend : BitVec 14),
    s.halted = false → ∀ i f op data,
    ((i = .voiceFrequency ch vc d ∧ f = (fun V : Voice => { V with frequency := d }) ∧
        op = 7 ∧ data = fun w : CommandWord => w.toNat % 2 ^ 16 = d.toNat) ∨
      (i = .voiceModulation ch vc d ∧ f = (fun V : Voice => { V with mod := d }) ∧
        op = 8 ∧ data = fun w : CommandWord => w.toNat % 2 ^ 16 = d.toNat) ∨
      (i = .voiceVelocity ch vc vel ∧ f = (fun V : Voice => { V with velocity := vel }) ∧
        op = 9 ∧ data = fun w : CommandWord => w.toNat % 2 ^ 7 = vel.toNat) ∨
      (i = .voicePitchBend ch vc bend ∧ f = (fun V : Voice => { V with pitchBend := bend }) ∧
        op = 10 ∧ data = fun w : CommandWord => w.toNat % 2 ^ 14 = bend.toNat)) →
    (∀ w : CommandWord, w.toNat / 2 ^ 28 = op → w.toNat / 2 ^ 24 % 16 = ch.toNat →
      w.toNat / 2 ^ 22 % 4 = vc.toNat → data w → decodeCommand w = i) ∧
    ∃ t, exec i s = .next t ∧ t.framing = s.framing ∧
      if ch.toNat < 7 ∧ vc.toNat < (if ch.toNat < 4 then 4 else 1) then
        ChangesOnlyVoice s t ch.toNat vc.toNat f
      else t = s

/-- R251: a command word with an invalid selector, and every reserved command word, leaves the whole
block unchanged. -/
def Obligations.InvalidSelectorsAreSilentlyIgnored : Prop :=
  ∀ (s : State) (w : CommandWord) (es : List Event) (op ch vc data : Nat),
    s.halted = false → s.inputs = .cmd w :: es →
    op = w.toNat / 2 ^ 28 → ch = w.toNat / 2 ^ 24 % 16 → vc = w.toNat / 2 ^ 22 % 4 →
    data = w.toNat % 2 ^ 16 →
    ((1 ≤ op ∧ op ≤ 10 ∧ 7 ≤ ch) ∨
      (5 ≤ op ∧ op ≤ 10 ∧ ch < 7 ∧ (if ch < 4 then 4 else 1) ≤ vc) ∨
      (op = 3 ∧ ch < 7 ∧ (4 < data ∨ (data = 4 ∧ ch < 4))) ∨ 12 ≤ op) →
    step s = .next { s with inputs := es }

/-! ### The tick -/

/-- R123, R143 to R146: `UPDATE_ALL` completes; every disabled channel keeps its registers and its
voices, and every enabled channel steps each of its voices and drives the sum of their outputs,
divided by the number of voices and scaled by the volume. -/
def Obligations.TickStepsExactlyTheEnabledChannels : Prop :=
  ∀ s : State, s.halted = false → ∃ t, exec .updateAll s = .next t ∧
    t.framing = s.framing ∧ t.halted = false ∧ t.inputs = s.inputs ∧
    ∀ c r, s.regs? c = some r →
      if r.enable then
        (∀ v, t.voice? c v = (s.voice? c v).map fun V => (voiceStep r.waveform V).1) ∧
        ∃ outs : List Int,
          outs.length = (if c < 4 then 4 else 1) ∧
          (∀ v V, s.voice? c v = some V → outs[v]? = some (voiceStep r.waveform V).2) ∧
          t.regs? c = some
            { r with
              outVal := BitVec.ofInt 10
                (outs.sum / (if c < 4 then 4 else 1) * (r.volume.toNat : Int) / 128) }
      else t.regs? c = some r ∧ ∀ v, t.voice? c v = s.voice? c v

/-- R182: an `UPDATE_ALL` command word, whatever its other bits, has the effect of one `TICK`. -/
def Obligations.UpdateAllIsOneTick : Prop :=
  ∀ (s : State) (w : CommandWord) (es : List Event), w.toNat / 2 ^ 28 = 11 →
    step { s with inputs := .cmd w :: es } = step { s with inputs := .tick :: es }

/-- R125 to R127: a tick of a voice in ATTACK. -/
def Obligations.AttackStageOfAVoice : Prop :=
  ∀ (w : Wave) (V : Voice), V.adsrState = .attack →
    let V' := (voiceStep w V).1
    let target := 1023 * 1016 * (V.velocity.toNat : Int) / 2 ^ 17 + 8
    let n := V.envCount.toNat + 1
    if 16383 < n then
      V'.adsrState = .decay ∧ V'.envCount = 0 ∧ V'.envStart = target ∧ V'.env = V.env
    else
      V'.adsrState = .attack ∧ V'.envCount.toNat = n ∧ V'.envStart = V.envStart ∧
      V'.env = tableRead .attackCurve (BitVec.ofNat 10 (n / 16)) * 1023 * (V.velocity.toNat : Int)
        / 2 ^ 17 + 8 ∧
      8 ≤ V'.env ∧ V'.env ≤ 1022

/-- R128: a tick of a voice in DECAY; the difference is signed. -/
def Obligations.DecayStageOfAVoice : Prop :=
  ∀ (w : Wave) (V : Voice), V.adsrState = .decay →
    let V' := (voiceStep w V).1
    let n := V.envCount.toNat + 1
    if 16383 < n then
      V'.adsrState = .sustain ∧ V'.envCount = 0 ∧ V'.envStart = 512 ∧ V'.env = V.env
    else
      V'.adsrState = .decay ∧ V'.envCount.toNat = n ∧ V'.envStart = V.envStart ∧
      V'.env = tableRead .decayCurve (BitVec.ofNat 10 (n / 16)) * (V.envStart - 512) / 2 ^ 10 + 512

/-- R129: a tick of a voice in SUSTAIN; only a cleared gate moves it on, and the envelope value
stays. -/
def Obligations.SustainStageOfAVoice : Prop :=
  ∀ (w : Wave) (V : Voice), V.adsrState = .sustain →
    let V' := (voiceStep w V).1
    V'.env = V.env ∧ V'.envStart = V.envStart ∧
    if V.gate then V'.adsrState = .sustain ∧ V'.envCount = V.envCount
    else V'.adsrState = .release ∧ V'.envCount = 0

/-- R130: a tick of a voice in RELEASE. -/
def Obligations.ReleaseStageOfAVoice : Prop :=
  ∀ (w : Wave) (V : Voice), V.adsrState = .release →
    let V' := (voiceStep w V).1
    let n := V.envCount.toNat + 1
    if 16383 < n then
      V'.adsrState = .attack ∧ V'.envCount = 0 ∧ V'.envStart = 0 ∧ V'.env = V.env
    else
      V'.adsrState = .release ∧ V'.envCount.toNat = n ∧ V'.envStart = V.envStart ∧
      V'.env = tableRead .decayCurve (BitVec.ofNat 10 (n / 16)) * V.envStart / 2 ^ 10

/-- The LFO phase and the phase accumulator after a tick (R134 to R137), and the fields of a voice no
tick writes. The bend factor 1 and the LFO step 1 are the values of R10; the spec leaves both open
(93_implementation_defined.md M5, M6), and that the model fixes them is its choice (log entry 6). -/
def Obligations.OscillatorStepOfAVoice : Prop :=
  ∀ (w : Wave) (V : Voice),
    let V' := (voiceStep w V).1
    let freq : Int := V.frequency.toNat
    let db : Int := if V.pitchBend.toNat = 8192 then 0
      else freq * 1 * ((V.pitchBend.toNat : Int) - 8192) / 2 ^ 15
    let dm : Int := if V.mod = 0 then 0
      else freq * tableRead .modCurve V'.modCount * V.mod.toNat / 2 ^ 26
    V'.modCount.toNat =
      (if V.mod = 0 then V.modCount.toNat else (V.modCount.toNat + 1) % 1024) ∧
    (V'.count.toNat : Int) = (V.count.toNat + (freq + db + dm)) % 16384 ∧
    V'.frequency = V.frequency ∧ V'.pitchBend = V.pitchBend ∧ V'.mod = V.mod ∧
    V'.gate = V.gate ∧ V'.velocity = V.velocity

/-- R138, R139: the waveform multiplexer; the square wave reads the full phase, every other shape its
table at the phase shifted right by 4. -/
def Obligations.WaveformMultiplexer : Prop :=
  ∀ count : Phase,
    let i : TableWord := BitVec.ofNat 10 (count.toNat / 16)
    waveSample .square count = (if count.toNat < 8191 then 0 else 1023) ∧
    waveSample .sine count = (Config.tableContents .sine i).toNat ∧
    waveSample .triangle count = (Config.tableContents .triangle i).toNat ∧
    waveSample .ramp count = (Config.tableContents .ramp i).toNat ∧
    waveSample .noise count = (Config.tableContents .noise i).toNat

/-- Every index the rules form is in range, so that no bit of it is lost (R62): the index read is the
shifted counter itself. -/
def Obligations.TableIndexIsTheShiftedCounter : Prop :=
  ∀ n : Nat, n ≤ 16383 → (tableIndex n).toNat = n / 16

/-- R138 to R141: a voice is silent when at the start of its step its gate is off and it is not in
ATTACK; otherwise it contributes the sample of its waveform at the new phase scaled by the new
envelope. -/
def Obligations.VoiceOutputIsSilentOrScaledSample : Prop :=
  ∀ (w : Wave) (V : Voice),
    let V' := (voiceStep w V).1
    let i : TableWord := BitVec.ofNat 10 (V'.count.toNat / 16)
    let sample : Int := match w with
      | .square => if V'.count.toNat < 8191 then 0 else 1023
      | .sine => (Config.tableContents .sine i).toNat
      | .triangle => (Config.tableContents .triangle i).toNat
      | .ramp => (Config.tableContents .ramp i).toNat
      | .noise => (Config.tableContents .noise i).toNat
    (V.gate = false → V.adsrState ≠ .attack → (voiceStep w V).2 = 0) ∧
    ((V.gate = true ∨ V.adsrState = .attack) →
      (voiceStep w V).2 = sample * V'.env / 2 ^ 10)

/-- The phase after `n` ticks of a voice with neutral bend and no modulation (95_test_vectors.md S2;
40_synthesis.md section 3). -/
def Obligations.PhaseWrapsModuloMaskPlusOne : Prop :=
  ∀ (w : Wave) (V : Voice) (n : Nat), V.pitchBend = 8192 → V.mod = 0 →
    ((fun U => (voiceStep w U).1)^[n] V).count.toNat =
      (V.count.toNat + n * V.frequency.toNat) % 16384

/-- The whole free-running cycle of a voice whose gate is off (40_synthesis.md section 7): where it
is after each of the 49153 ticks, and that it then starts again. -/
def Obligations.ReleasedVoiceCyclesIn49153Ticks : Prop :=
  ∀ (w : Wave) (V : Voice), V.adsrState = .attack → V.envCount = 0 → V.gate = false →
    ∀ n, n ≤ 49153 →
      let U := (fun U => (voiceStep w U).1)^[n] V
      if n < 16384 then U.adsrState = .attack ∧ U.envCount.toNat = n
      else if n < 32768 then U.adsrState = .decay ∧ U.envCount.toNat = n - 16384
      else if n = 32768 then U.adsrState = .sustain ∧ U.envCount = 0
      else if n < 49153 then U.adsrState = .release ∧ U.envCount.toNat = n - 32769
      else U.adsrState = .attack ∧ U.envCount = 0

/-- A run of 16384 ticks on an enabled channel takes a just-started voice from ATTACK to DECAY, with
the attack target as its start point; one tick less leaves it in ATTACK (95_test_vectors.md S3). That
events are read from a list is the model's choice (log entry 1). -/
def Obligations.RunOfOneStageReachesDecay : Prop :=
  ∀ (s : State) (c v : Nat) (r : ChannelRegs) (V : Voice) (es : List Event),
    s.halted = false → s.regs? c = some r → r.enable = true → s.voice? c v = some V →
    V.adsrState = .attack → V.envCount = 0 → s.inputs = List.replicate 16384 .tick ++ es →
    (∃ t U, run 16383 s = .next t ∧ t.voice? c v = some U ∧ U.adsrState = .attack) ∧
    ∃ t U, run 16384 s = .next t ∧ t.voice? c v = some U ∧ t.inputs = es ∧
      U.adsrState = .decay ∧ U.envCount = 0 ∧
      U.envStart = 1023 * 1016 * (V.velocity.toNat : Int) / 2 ^ 17 + 8

/-! ### MIDI -/

/-- R90, R91, R201, R202: in `IDLE` a status byte opens a message of the stated length, or, when the
message has no data bytes (a system byte), changes nothing. The byte of type `t` and low nibble `x` is
16 `t` + `x`. -/
def Obligations.StatusByteOpensMessageOfStatedLength : Prop :=
  ∀ (s : State) (sub : Nibble), s.halted = false → s.framing.mpState = .idle →
    (∀ i t n x, (i, t, n, x) ∈
        ([(.noteOff sub, 0x8, 2, sub), (.noteOn sub, 0x9, 2, sub), (.polyPressure sub, 0xA, 2, sub),
          (.controlChange sub, 0xB, 2, sub), (.programChange sub, 0xC, 1, sub),
          (.channelPressure sub, 0xD, 1, sub), (.pitchBend sub, 0xE, 2, sub),
          (.sysMtcQuarterFrame, 0xF, 1, 0x1), (.sysSongPosition, 0xF, 2, 0x2),
          (.sysSongSelect, 0xF, 1, 0x3)] : List (Instr × Nibble × Fin 3 × Nibble)) →
      decodeMidi .idle (BitVec.ofNat 8 (16 * t.toNat + x.toNat)) = i ∧
      exec i s = .next
        { s with
          framing :=
            { mpState := .data, mpType := t, mpSub := x, mpNeed := n, mpD1 := s.framing.mpD1 } }) ∧
    ∀ i x, (i, x) ∈
        ([(.sysExclusive, 0x0), (.sysUndefinedF4, 0x4), (.sysUndefinedF5, 0x5),
          (.sysTuneRequest, 0x6), (.sysEndExclusive, 0x7), (.rtTimingClock, 0x8),
          (.rtUndefinedF9, 0x9), (.rtStart, 0xA), (.rtContinue, 0xB), (.rtStop, 0xC),
          (.rtUndefinedFD, 0xD), (.rtActiveSensing, 0xE), (.rtSystemReset, 0xF)] :
          List (Instr × Nibble)) →
      decodeMidi .idle (BitVec.ofNat 8 (16 * 0xF + x.toNat)) = i ∧ exec i s = .next s

/-- R219 to R230: the system bytes 0xF4 to 0xFF change nothing in `IDLE`; 0xFF does not reset the
block. -/
def Obligations.SystemBytesWithoutDataChangeNothing : Prop :=
  ∀ (s : State) (b : MidiByte) (es : List Event), s.halted = false → s.framing.mpState = .idle →
    0xF4 ≤ b.toNat → s.inputs = .midi b :: es → step s = .next { s with inputs := es }

/-- R204, R205: in `IDLE` a stray data byte and the terminator change nothing. -/
def Obligations.StrayBytesAndTerminatorChangeNothing : Prop :=
  ∀ (s : State) (d : Data7), s.halted = false → s.framing.mpState = .idle →
    exec (.strayData d) s = .next s ∧ exec .terminator s = .next s ∧
    decodeMidi .idle 0x00 = .terminator ∧
    (1 ≤ d.toNat → decodeMidi .idle (BitVec.ofNat 8 d.toNat) = .strayData d)

/-- The first of two data bytes is held, and nothing else changes (42_midi.md section 1). -/
def Obligations.FirstDataByteIsHeld : Prop :=
  ∀ (s : State) (d : Data7), s.halted = false → s.framing.mpState = .data →
    s.framing.mpNeed = 2 →
    exec (.dataByte d) s = .next { s with framing := { s.framing with mpD1 := d, mpNeed := 1 } }

/-- R208: the last byte of a NOTE_OFF message clears the gate and sets frequency and velocity of voice
0 of the channel the nibble names (R203). -/
def Obligations.NoteOffDispatch : Prop :=
  ∀ (s : State) (vel : Data7) (c : Nat), s.halted = false → s.framing.mpState = .data →
    s.framing.mpNeed = 1 → s.framing.mpType = 0x8 →
    c = (if s.framing.mpSub.toNat < 7 then s.framing.mpSub.toNat else 0) →
    ∃ t, exec (.dataByte vel) s = .next t ∧
      t.framing = { s.framing with mpState := .idle, mpNeed := 0 } ∧
      ChangesOnlyVoice s t c 0 fun V =>
        { V with gate := false, frequency := Config.noteFreq s.framing.mpD1, velocity := vel }

/-- R209: the last byte of a NOTE_ON message restarts voice 0 of the channel the nibble names, with the
frequency of the key and the velocity, 0 included. -/
def Obligations.NoteOnDispatch : Prop :=
  ∀ (s : State) (vel : Data7) (c : Nat), s.halted = false → s.framing.mpState = .data →
    s.framing.mpNeed = 1 → s.framing.mpType = 0x9 →
    c = (if s.framing.mpSub.toNat < 7 then s.framing.mpSub.toNat else 0) →
    ∃ t, exec (.dataByte vel) s = .next t ∧
      t.framing = { s.framing with mpState := .idle, mpNeed := 0 } ∧
      ChangesOnlyVoice s t c 0 fun V =>
        { V with
          gate := true, count := 0, modCount := 0, envCount := 0, adsrState := .attack
          frequency := Config.noteFreq s.framing.mpD1, velocity := vel }

/-- R214: the last byte of a PITCH_BEND message sets the bend of voice 0, low 7 bits first. -/
def Obligations.PitchBendDispatch : Prop :=
  ∀ (s : State) (d2 : Data7) (c : Nat), s.halted = false → s.framing.mpState = .data →
    s.framing.mpNeed = 1 → s.framing.mpType = 0xE →
    c = (if s.framing.mpSub.toNat < 7 then s.framing.mpSub.toNat else 0) →
    ∃ t, exec (.dataByte d2) s = .next t ∧
      t.framing = { s.framing with mpState := .idle, mpNeed := 0 } ∧
      ChangesOnlyVoice s t c 0 fun V =>
        { V with pitchBend := BitVec.ofNat 14 (d2.toNat * 128 + s.framing.mpD1.toNat) }

/-- R210 to R213, R216 to R218: the last byte of every other message closes it and changes no channel
and no voice. -/
def Obligations.OtherMessagesAreNotDispatched : Prop :=
  ∀ (s : State) (d : Data7), s.halted = false → s.framing.mpState = .data →
    s.framing.mpNeed = 1 → s.framing.mpType ∉ ([0x8, 0x9, 0xE] : List Nibble) →
    ∃ t, exec (.dataByte d) s = .next t ∧
      t.framing = { s.framing with mpState := .idle, mpNeed := 0 } ∧ ChangesOnlyFraming s t

/-- In a data position every byte is data: the meaning of any MIDI byte while a message is open is
that of its low 7 bits as a data byte (42_midi.md section 4; for bytes read in another framing state
this is the model's choice, log entry 8). -/
def Obligations.EveryByteInDataPositionIsData : Prop :=
  ∀ (s : State) (i : Instr) (b : MidiByte), s.framing.mpState = .data → encode i = .midi b →
    exec i s = exec (.dataByte (BitVec.ofNat 7 (b.toNat % 128))) s

/-- A NOTE_ON message run byte by byte (95_test_vectors.md S1): three steps start voice 0 of the
channel with the key's frequency, whatever bit 7 of the data bytes holds. That events are read from a
list is the model's choice (log entry 1). -/
def Obligations.NoteOnMessageStartsVoiceZero : Prop :=
  ∀ (s : State) (c : Nat) (key vel : MidiByte) (es : List Event), s.halted = false →
    s.framing.mpState = .idle → c < 7 →
    s.inputs = .midi (BitVec.ofNat 8 (0x90 + c)) :: .midi key :: .midi vel :: es →
    ∃ t V U, run 3 s = .next t ∧ t.inputs = es ∧ t.framing.mpState = .idle ∧
      s.voice? c 0 = some V ∧ t.voice? c 0 = some U ∧
      U = { V with
        gate := true, count := 0, modCount := 0, envCount := 0, adsrState := .attack
        frequency := Config.noteFreq (BitVec.ofNat 7 (key.toNat % 128))
        velocity := BitVec.ofNat 7 (vel.toNat % 128) } ∧
      (∀ c' v', ¬(c' = c ∧ v' = 0) → t.voice? c' v' = s.voice? c' v') ∧
      ∀ c', t.regs? c' = s.regs? c'

/-! ### Rules of the whole machine -/

/-- The invariant holds after reset. -/
def Obligations.ResetMeetsTheInvariant : Prop := State.reset.Inv

/-- Every step keeps the invariant, from every state that meets it: the ranges of the envelope, the
legal waveform of each channel, `out_en` equal to `enable`, outputs of at most 1013, RELEASE only with
a cleared gate, and the framing (10_state.md sections 2 to 5, 40_synthesis.md sections 2 and 6). -/
def Obligations.EveryStepKeepsTheInvariant : Prop :=
  ∀ s t : State, s.Inv → step s = .next t → t.Inv

/-- No level a channel drives is truncated when it is stored (40_synthesis.md section 6): within the
invariant the level itself is in 0..1013. -/
def Obligations.OutputNeverTruncates : Prop :=
  ∀ (nv : Nat) (C : Channel nv), 1 ≤ nv → (∀ (v : Nat) (V : Voice), C.voices[v]? = some V → V.Inv) →
    0 ≤ C.level ∧ C.level ≤ 1013 ∧ (BitVec.ofInt 10 C.level).toNat = C.level

/-- A voice in RELEASE is silent, so that the release curve never reaches an output
(40_synthesis.md section 2). -/
def Obligations.ReleasedVoiceIsSilent : Prop :=
  ∀ (s : State) (c v : Nat) (V : Voice) (w : Wave), s.Inv → s.voice? c v = some V →
    V.adsrState = .release → (voiceStep w V).2 = 0

/-- The envelope machine only goes forward (10_state.md section 3): over a tick the state of a voice
stays or moves to the next of the cycle, and over every other event it stays or goes to ATTACK. -/
def Obligations.EnvelopeStateOnlyMovesForward : Prop :=
  ∀ (s t : State) (e : Event) (c v : Nat) (V U : Voice), takeEvent e s = .next t →
    s.voice? c v = some V → t.voice? c v = some U →
    if e = .tick ∨ carriesUpdateAll e = true then
      U.adsrState = V.adsrState ∨ U.adsrState = V.adsrState.following
    else U.adsrState = V.adsrState ∨ U.adsrState = .attack

/-- Only `VOICE_ON` on that voice and the last byte of a NOTE_ON for its channel open a gate
(10_state.md section 3). -/
def Obligations.OnlyNoteStartsOpenAGate : Prop :=
  ∀ (s t : State) (e : Event) (c v : Nat) (V U : Voice), takeEvent e s = .next t →
    s.voice? c v = some V → t.voice? c v = some U → V.gate = false → U.gate = true →
    (∃ (w : CommandWord) (ch : Nibble) (vc : BitVec 2),
      e = .cmd w ∧ decodeCommand w = .voiceOn ch vc ∧ c = ch.toNat ∧ v = vc.toNat) ∨
    (∃ b, e = .midi b ∧ s.framing.mpState = .data ∧ s.framing.mpNeed ≠ 2 ∧
      s.framing.mpType = 0x9 ∧ c = midiChannel s.framing.mpSub ∧ v = 0)

/-- `out_val` is written only by the tick, and only for enabled channels (10_state.md section 4): over
any event but a tick, an `UPDATE_ALL` command and `RESET`, every `out_val` keeps its value, and over every event but
`RESET` that of a disabled channel does. -/
def Obligations.OutputIsWrittenOnlyByTheTick : Prop :=
  ∀ (s t : State) (e : Event) (c : Nat) (r q : ChannelRegs), takeEvent e s = .next t →
    s.regs? c = some r → t.regs? c = some q → e ≠ .reset →
    (r.enable = false ∨ (e ≠ .tick ∧ carriesUpdateAll e = false)) →
    q.outVal = r.outVal

/-- Ticks and commands do not see the framing, so that a pending message stays pending across them
(42_midi.md section 4). -/
def Obligations.OnlyMidiBytesTouchTheFraming : Prop :=
  ∀ (s t : State) (e : Event), takeEvent e s = .next t → e ≠ .reset → (∀ b, e ≠ .midi b) →
    t.framing = s.framing

/-- MIDI bytes write no channel register and only voice 0 of a channel (42_midi.md sections 1
and 2). -/
def Obligations.MidiBytesWriteOnlyVoiceZero : Prop :=
  ∀ (s t : State) (b : MidiByte), takeEvent (.midi b) s = .next t →
    (∀ c, t.regs? c = s.regs? c) ∧ ∀ c v, v ≠ 0 → t.voice? c v = s.voice? c v

/-- Channels are independent (40_synthesis.md section 1, 95_test_vectors.md S6): what a channel becomes
over any event depends on that channel, on the framing and on the halt flag, and on no other
channel. -/
def Obligations.ChannelsAreIndependent : Prop :=
  ∀ (s₁ s₂ t₁ t₂ : State) (e : Event) (c : Nat), AgreeOnChannel c s₁ s₂ →
    s₁.framing = s₂.framing → takeEvent e s₁ = .next t₁ → takeEvent e s₂ = .next t₂ →
    AgreeOnChannel c t₁ t₂ ∧ t₁.framing = t₂.framing

/-- A run with no `RX_OVERFLOW` never stops: from a running block every run of any length answers a
next state that is not halted (60_exceptions.md section 1). That events are read from a list, and that
a step with none left holds the state, is the model's choice (log entry 1). -/
def Obligations.RunWithoutOverflowNeverStops : Prop :=
  ∀ (k : Nat) (s : State), s.halted = false → .rxOverflow ∉ s.inputs →
    ∃ t, run k s = .next t ∧ t.halted = false
end

