-- ==== Sys2Proof/Laws/Encoding.lean ====
section
/-! SUPPORT. The fields of a written command word and of a MIDI byte: what the decoder reads of what
the encoder writes. -/

namespace Sys2Proof

/-! ### Fields as numbers -/

theorem opField_toNat (w : CommandWord) : (opField w).toNat = w.toNat / 2 ^ 28 := by
  simp only [opField, BitVec.extractLsb'_toNat, Nat.shiftRight_eq_div_pow]
  have := w.isLt; omega

theorem chField_toNat (w : CommandWord) : (chField w).toNat = w.toNat / 2 ^ 24 % 16 := by
  simp [chField, Nat.shiftRight_eq_div_pow]

theorem vcField_toNat (w : CommandWord) : (vcField w).toNat = w.toNat / 2 ^ 22 % 4 := by
  simp [vcField, Nat.shiftRight_eq_div_pow]

theorem dataField_toNat (w : CommandWord) : (dataField w).toNat = w.toNat % 2 ^ 16 := by
  simp [dataField]

theorem data7Field_toNat (w : CommandWord) : (data7Field w).toNat = w.toNat % 2 ^ 7 := by
  simp [data7Field]

theorem data14Field_toNat (w : CommandWord) : (data14Field w).toNat = w.toNat % 2 ^ 14 := by
  simp [data14Field]

theorem typeField_toNat (b : MidiByte) : (typeField b).toNat = b.toNat / 16 := by
  simp only [typeField, BitVec.extractLsb'_toNat, Nat.shiftRight_eq_div_pow]
  have := b.isLt; omega

theorem maskData_eq (b : MidiByte) : maskData b = BitVec.ofNat 7 (b.toNat % 128) := by
  apply BitVec.eq_of_toNat_eq
  simp [maskData]

/-! ### Fields from numbers -/

theorem opField_eq (w : CommandWord) : opField w = BitVec.ofNat 4 (w.toNat / 2 ^ 28) := by
  apply BitVec.eq_of_toNat_eq
  rw [opField_toNat, BitVec.toNat_ofNat]
  have := w.isLt; omega

theorem chField_eq (w : CommandWord) : chField w = BitVec.ofNat 4 (w.toNat / 2 ^ 24 % 16) := by
  apply BitVec.eq_of_toNat_eq
  rw [chField_toNat, BitVec.toNat_ofNat]; omega

theorem vcField_eq (w : CommandWord) : vcField w = BitVec.ofNat 2 (w.toNat / 2 ^ 22 % 4) := by
  apply BitVec.eq_of_toNat_eq
  rw [vcField_toNat, BitVec.toNat_ofNat]; omega

theorem dataField_eq (w : CommandWord) : dataField w = BitVec.ofNat 16 (w.toNat % 2 ^ 16) := by
  apply BitVec.eq_of_toNat_eq
  rw [dataField_toNat, BitVec.toNat_ofNat]; omega

theorem data7Field_eq (w : CommandWord) : data7Field w = BitVec.ofNat 7 (w.toNat % 2 ^ 7) := by
  apply BitVec.eq_of_toNat_eq
  rw [data7Field_toNat, BitVec.toNat_ofNat]; omega

theorem data14Field_eq (w : CommandWord) : data14Field w = BitVec.ofNat 14 (w.toNat % 2 ^ 14) := by
  apply BitVec.eq_of_toNat_eq
  rw [data14Field_toNat, BitVec.toNat_ofNat]; omega

/-! ### Fields of a written word -/

theorem toNat_append_eq {n m : Nat} (x : BitVec n) (y : BitVec m) :
    (x ++ y).toNat = x.toNat * 2 ^ m + y.toNat := by
  rw [BitVec.toNat_append, ← Nat.shiftLeft_add_eq_or_of_lt y.isLt, Nat.shiftLeft_eq]

/-- A written command word as a number. -/
theorem enc_toNat (op ch : Nibble) (vc : BitVec 2) (d : BitVec 16) :
    (enc op ch vc d).toNat =
      op.toNat * 2 ^ 28 + ch.toNat * 2 ^ 24 + vc.toNat * 2 ^ 22 + d.toNat := by
  have h := toNat_append_eq (op ++ ch ++ vc ++ 0#6) d
  rw [toNat_append_eq (op ++ ch ++ vc) 0#6, toNat_append_eq (op ++ ch) vc,
    toNat_append_eq op ch] at h
  simp only [BitVec.toNat_ofNat] at h
  have e : (enc op ch vc d).toNat = (op ++ ch ++ vc ++ 0#6 ++ d).toNat := rfl
  rw [e, h]
  omega

/-- A written command word bit by bit. -/
theorem getLsbD_enc (op ch : Nibble) (vc : BitVec 2) (d : BitVec 16) (i : Nat) :
    (enc op ch vc d).getLsbD i =
      if i < 16 then d.getLsbD i
      else if i < 22 then false
      else if i < 24 then vc.getLsbD (i - 22)
      else if i < 28 then ch.getLsbD (i - 24)
      else op.getLsbD (i - 28) := by
  have e : (enc op ch vc d).getLsbD i = (op ++ ch ++ vc ++ 0#6 ++ d).getLsbD i := rfl
  rw [e]
  simp only [BitVec.getLsbD_append, BitVec.getLsbD_zero]
  rcases Nat.lt_or_ge i 16 with h | h
  · simp [h]
  rcases Nat.lt_or_ge i 22 with h2 | h2
  · simp [show ¬ i < 16 by omega, h2, show i - 16 < 6 by omega]
  rcases Nat.lt_or_ge i 24 with h3 | h3
  · simp [show ¬ i < 16 by omega, show ¬ i < 22 by omega, show ¬ i - 16 < 6 by omega, h3,
      show i - 16 - 6 = i - 22 by omega, show i - 22 < 2 by omega]
  rcases Nat.lt_or_ge i 28 with h4 | h4
  · simp [show ¬ i < 16 by omega, show ¬ i < 22 by omega, show ¬ i < 24 by omega,
      show ¬ i - 16 < 6 by omega, h4, show ¬ i - 16 - 6 < 2 by omega,
      show i - 16 - 6 - 2 = i - 24 by omega, show i - 24 < 4 by omega]
  · simp [show ¬ i < 16 by omega, show ¬ i < 22 by omega, show ¬ i < 24 by omega,
      show ¬ i < 28 by omega, show ¬ i - 16 < 6 by omega, show ¬ i - 16 - 6 < 2 by omega,
      show ¬ i - 16 - 6 - 2 < 4 by omega, show i - 16 - 6 - 2 - 4 = i - 28 by omega]

@[simp] theorem opField_enc (op ch : Nibble) (vc : BitVec 2) (d : BitVec 16) :
    opField (enc op ch vc d) = op := by
  apply BitVec.eq_of_toNat_eq
  rw [opField_toNat, enc_toNat]
  have := op.isLt; have := ch.isLt; have := vc.isLt; have := d.isLt; omega

@[simp] theorem chField_enc (op ch : Nibble) (vc : BitVec 2) (d : BitVec 16) :
    chField (enc op ch vc d) = ch := by
  apply BitVec.eq_of_toNat_eq
  rw [chField_toNat, enc_toNat]
  have := op.isLt; have := ch.isLt; have := vc.isLt; have := d.isLt; omega

@[simp] theorem vcField_enc (op ch : Nibble) (vc : BitVec 2) (d : BitVec 16) :
    vcField (enc op ch vc d) = vc := by
  apply BitVec.eq_of_toNat_eq
  rw [vcField_toNat, enc_toNat]
  have := op.isLt; have := ch.isLt; have := vc.isLt; have := d.isLt; omega

@[simp] theorem dataField_enc (op ch : Nibble) (vc : BitVec 2) (d : BitVec 16) :
    dataField (enc op ch vc d) = d := by
  apply BitVec.eq_of_toNat_eq
  rw [dataField_toNat, enc_toNat]
  have := d.isLt; omega

@[simp] theorem data7Field_enc (op ch : Nibble) (vc : BitVec 2) (d : BitVec 16) :
    data7Field (enc op ch vc d) = d.setWidth 7 := by
  apply BitVec.eq_of_toNat_eq
  rw [data7Field_toNat, enc_toNat, BitVec.toNat_setWidth]
  omega

@[simp] theorem data14Field_enc (op ch : Nibble) (vc : BitVec 2) (d : BitVec 16) :
    data14Field (enc op ch vc d) = d.setWidth 14 := by
  apply BitVec.eq_of_toNat_eq
  rw [data14Field_toNat, enc_toNat, BitVec.toNat_setWidth]
  omega

/-! ### Fields of a written byte -/

@[simp] theorem typeField_statusByteOf : ∀ t s : Nibble, typeField (statusByteOf t s) = t := by
  decide

@[simp] theorem subField_statusByteOf : ∀ t s : Nibble, subField (statusByteOf t s) = s := by
  decide

@[simp] theorem maskData_dataByteOf : ∀ d : Data7, maskData (dataByteOf d) = d := by
  decide

@[simp] theorem dataByteOf_eq_zero : ∀ d : Data7, (dataByteOf d = 0) ↔ (d = 0) := by
  decide

theorem typeField_dataByteOf : ∀ d : Data7, (typeField (dataByteOf d)).toNat < 8 := by
  decide

end Sys2Proof
end

