-- ==== Sys2Proof/Laws/State.lean ====
section
/-! SUPPORT. What each record update does to each field, one lemma a field, so that no proof unfolds
an update. -/

namespace Sys2Proof.Machine

/-! ### `Voice.start` -/

@[simp] theorem Voice.start_count (V : Voice) :
    V.start.count = 0 := rfl

@[simp] theorem Voice.start_frequency (V : Voice) :
    V.start.frequency = V.frequency := rfl

@[simp] theorem Voice.start_pitchBend (V : Voice) :
    V.start.pitchBend = V.pitchBend := rfl

@[simp] theorem Voice.start_modCount (V : Voice) :
    V.start.modCount = 0 := rfl

@[simp] theorem Voice.start_mod (V : Voice) :
    V.start.mod = V.mod := rfl

@[simp] theorem Voice.start_gate (V : Voice) :
    V.start.gate = true := rfl

@[simp] theorem Voice.start_adsrState (V : Voice) :
    V.start.adsrState = .attack := rfl

@[simp] theorem Voice.start_envCount (V : Voice) :
    V.start.envCount = 0 := rfl

@[simp] theorem Voice.start_env (V : Voice) :
    V.start.env = V.env := rfl

@[simp] theorem Voice.start_envStart (V : Voice) :
    V.start.envStart = V.envStart := rfl

@[simp] theorem Voice.start_velocity (V : Voice) :
    V.start.velocity = V.velocity := rfl

/-! ### `Voice.stop` -/

@[simp] theorem Voice.stop_count (V : Voice) :
    V.stop.count = V.count := rfl

@[simp] theorem Voice.stop_frequency (V : Voice) :
    V.stop.frequency = V.frequency := rfl

@[simp] theorem Voice.stop_pitchBend (V : Voice) :
    V.stop.pitchBend = V.pitchBend := rfl

@[simp] theorem Voice.stop_modCount (V : Voice) :
    V.stop.modCount = V.modCount := rfl

@[simp] theorem Voice.stop_mod (V : Voice) :
    V.stop.mod = V.mod := rfl

@[simp] theorem Voice.stop_gate (V : Voice) :
    V.stop.gate = false := rfl

@[simp] theorem Voice.stop_adsrState (V : Voice) :
    V.stop.adsrState = V.adsrState := rfl

@[simp] theorem Voice.stop_envCount (V : Voice) :
    V.stop.envCount = V.envCount := rfl

@[simp] theorem Voice.stop_env (V : Voice) :
    V.stop.env = V.env := rfl

@[simp] theorem Voice.stop_envStart (V : Voice) :
    V.stop.envStart = V.envStart := rfl

@[simp] theorem Voice.stop_velocity (V : Voice) :
    V.stop.velocity = V.velocity := rfl

/-! ### `Voice.setFrequency` -/

@[simp] theorem Voice.setFrequency_count (x : BitVec 16) (V : Voice) :
    (V.setFrequency x).count = V.count := rfl

@[simp] theorem Voice.setFrequency_frequency (x : BitVec 16) (V : Voice) :
    (V.setFrequency x).frequency = x := rfl

@[simp] theorem Voice.setFrequency_pitchBend (x : BitVec 16) (V : Voice) :
    (V.setFrequency x).pitchBend = V.pitchBend := rfl

@[simp] theorem Voice.setFrequency_modCount (x : BitVec 16) (V : Voice) :
    (V.setFrequency x).modCount = V.modCount := rfl

@[simp] theorem Voice.setFrequency_mod (x : BitVec 16) (V : Voice) :
    (V.setFrequency x).mod = V.mod := rfl

@[simp] theorem Voice.setFrequency_gate (x : BitVec 16) (V : Voice) :
    (V.setFrequency x).gate = V.gate := rfl

@[simp] theorem Voice.setFrequency_adsrState (x : BitVec 16) (V : Voice) :
    (V.setFrequency x).adsrState = V.adsrState := rfl

@[simp] theorem Voice.setFrequency_envCount (x : BitVec 16) (V : Voice) :
    (V.setFrequency x).envCount = V.envCount := rfl

@[simp] theorem Voice.setFrequency_env (x : BitVec 16) (V : Voice) :
    (V.setFrequency x).env = V.env := rfl

@[simp] theorem Voice.setFrequency_envStart (x : BitVec 16) (V : Voice) :
    (V.setFrequency x).envStart = V.envStart := rfl

@[simp] theorem Voice.setFrequency_velocity (x : BitVec 16) (V : Voice) :
    (V.setFrequency x).velocity = V.velocity := rfl

/-! ### `Voice.setModulation` -/

@[simp] theorem Voice.setModulation_count (x : BitVec 16) (V : Voice) :
    (V.setModulation x).count = V.count := rfl

@[simp] theorem Voice.setModulation_frequency (x : BitVec 16) (V : Voice) :
    (V.setModulation x).frequency = V.frequency := rfl

@[simp] theorem Voice.setModulation_pitchBend (x : BitVec 16) (V : Voice) :
    (V.setModulation x).pitchBend = V.pitchBend := rfl

@[simp] theorem Voice.setModulation_modCount (x : BitVec 16) (V : Voice) :
    (V.setModulation x).modCount = V.modCount := rfl

@[simp] theorem Voice.setModulation_mod (x : BitVec 16) (V : Voice) :
    (V.setModulation x).mod = x := rfl

@[simp] theorem Voice.setModulation_gate (x : BitVec 16) (V : Voice) :
    (V.setModulation x).gate = V.gate := rfl

@[simp] theorem Voice.setModulation_adsrState (x : BitVec 16) (V : Voice) :
    (V.setModulation x).adsrState = V.adsrState := rfl

@[simp] theorem Voice.setModulation_envCount (x : BitVec 16) (V : Voice) :
    (V.setModulation x).envCount = V.envCount := rfl

@[simp] theorem Voice.setModulation_env (x : BitVec 16) (V : Voice) :
    (V.setModulation x).env = V.env := rfl

@[simp] theorem Voice.setModulation_envStart (x : BitVec 16) (V : Voice) :
    (V.setModulation x).envStart = V.envStart := rfl

@[simp] theorem Voice.setModulation_velocity (x : BitVec 16) (V : Voice) :
    (V.setModulation x).velocity = V.velocity := rfl

/-! ### `Voice.setVelocity` -/

@[simp] theorem Voice.setVelocity_count (x : Data7) (V : Voice) :
    (V.setVelocity x).count = V.count := rfl

@[simp] theorem Voice.setVelocity_frequency (x : Data7) (V : Voice) :
    (V.setVelocity x).frequency = V.frequency := rfl

@[simp] theorem Voice.setVelocity_pitchBend (x : Data7) (V : Voice) :
    (V.setVelocity x).pitchBend = V.pitchBend := rfl

@[simp] theorem Voice.setVelocity_modCount (x : Data7) (V : Voice) :
    (V.setVelocity x).modCount = V.modCount := rfl

@[simp] theorem Voice.setVelocity_mod (x : Data7) (V : Voice) :
    (V.setVelocity x).mod = V.mod := rfl

@[simp] theorem Voice.setVelocity_gate (x : Data7) (V : Voice) :
    (V.setVelocity x).gate = V.gate := rfl

@[simp] theorem Voice.setVelocity_adsrState (x : Data7) (V : Voice) :
    (V.setVelocity x).adsrState = V.adsrState := rfl

@[simp] theorem Voice.setVelocity_envCount (x : Data7) (V : Voice) :
    (V.setVelocity x).envCount = V.envCount := rfl

@[simp] theorem Voice.setVelocity_env (x : Data7) (V : Voice) :
    (V.setVelocity x).env = V.env := rfl

@[simp] theorem Voice.setVelocity_envStart (x : Data7) (V : Voice) :
    (V.setVelocity x).envStart = V.envStart := rfl

@[simp] theorem Voice.setVelocity_velocity (x : Data7) (V : Voice) :
    (V.setVelocity x).velocity = x := rfl

/-! ### `Voice.setPitchBend` -/

@[simp] theorem Voice.setPitchBend_count (x : BitVec 14) (V : Voice) :
    (V.setPitchBend x).count = V.count := rfl

@[simp] theorem Voice.setPitchBend_frequency (x : BitVec 14) (V : Voice) :
    (V.setPitchBend x).frequency = V.frequency := rfl

@[simp] theorem Voice.setPitchBend_pitchBend (x : BitVec 14) (V : Voice) :
    (V.setPitchBend x).pitchBend = x := rfl

@[simp] theorem Voice.setPitchBend_modCount (x : BitVec 14) (V : Voice) :
    (V.setPitchBend x).modCount = V.modCount := rfl

@[simp] theorem Voice.setPitchBend_mod (x : BitVec 14) (V : Voice) :
    (V.setPitchBend x).mod = V.mod := rfl

@[simp] theorem Voice.setPitchBend_gate (x : BitVec 14) (V : Voice) :
    (V.setPitchBend x).gate = V.gate := rfl

@[simp] theorem Voice.setPitchBend_adsrState (x : BitVec 14) (V : Voice) :
    (V.setPitchBend x).adsrState = V.adsrState := rfl

@[simp] theorem Voice.setPitchBend_envCount (x : BitVec 14) (V : Voice) :
    (V.setPitchBend x).envCount = V.envCount := rfl

@[simp] theorem Voice.setPitchBend_env (x : BitVec 14) (V : Voice) :
    (V.setPitchBend x).env = V.env := rfl

@[simp] theorem Voice.setPitchBend_envStart (x : BitVec 14) (V : Voice) :
    (V.setPitchBend x).envStart = V.envStart := rfl

@[simp] theorem Voice.setPitchBend_velocity (x : BitVec 14) (V : Voice) :
    (V.setPitchBend x).velocity = V.velocity := rfl

/-! ### `Voice.enterStage` -/

@[simp] theorem Voice.enterStage_count (a : Adsr) (x : Int) (V : Voice) :
    (V.enterStage a x).count = V.count := rfl

@[simp] theorem Voice.enterStage_frequency (a : Adsr) (x : Int) (V : Voice) :
    (V.enterStage a x).frequency = V.frequency := rfl

@[simp] theorem Voice.enterStage_pitchBend (a : Adsr) (x : Int) (V : Voice) :
    (V.enterStage a x).pitchBend = V.pitchBend := rfl

@[simp] theorem Voice.enterStage_modCount (a : Adsr) (x : Int) (V : Voice) :
    (V.enterStage a x).modCount = V.modCount := rfl

@[simp] theorem Voice.enterStage_mod (a : Adsr) (x : Int) (V : Voice) :
    (V.enterStage a x).mod = V.mod := rfl

@[simp] theorem Voice.enterStage_gate (a : Adsr) (x : Int) (V : Voice) :
    (V.enterStage a x).gate = V.gate := rfl

@[simp] theorem Voice.enterStage_adsrState (a : Adsr) (x : Int) (V : Voice) :
    (V.enterStage a x).adsrState = a := rfl

@[simp] theorem Voice.enterStage_envCount (a : Adsr) (x : Int) (V : Voice) :
    (V.enterStage a x).envCount = 0 := rfl

@[simp] theorem Voice.enterStage_env (a : Adsr) (x : Int) (V : Voice) :
    (V.enterStage a x).env = V.env := rfl

@[simp] theorem Voice.enterStage_envStart (a : Adsr) (x : Int) (V : Voice) :
    (V.enterStage a x).envStart = x := rfl

@[simp] theorem Voice.enterStage_velocity (a : Adsr) (x : Int) (V : Voice) :
    (V.enterStage a x).velocity = V.velocity := rfl

/-! ### `Voice.stayInStage` -/

@[simp] theorem Voice.stayInStage_count (x : Int) (V : Voice) :
    (V.stayInStage x).count = V.count := rfl

@[simp] theorem Voice.stayInStage_frequency (x : Int) (V : Voice) :
    (V.stayInStage x).frequency = V.frequency := rfl

@[simp] theorem Voice.stayInStage_pitchBend (x : Int) (V : Voice) :
    (V.stayInStage x).pitchBend = V.pitchBend := rfl

@[simp] theorem Voice.stayInStage_modCount (x : Int) (V : Voice) :
    (V.stayInStage x).modCount = V.modCount := rfl

@[simp] theorem Voice.stayInStage_mod (x : Int) (V : Voice) :
    (V.stayInStage x).mod = V.mod := rfl

@[simp] theorem Voice.stayInStage_gate (x : Int) (V : Voice) :
    (V.stayInStage x).gate = V.gate := rfl

@[simp] theorem Voice.stayInStage_adsrState (x : Int) (V : Voice) :
    (V.stayInStage x).adsrState = V.adsrState := rfl

@[simp] theorem Voice.stayInStage_envCount (x : Int) (V : Voice) :
    (V.stayInStage x).envCount = BitVec.ofNat 15 V.nextEnvCount := rfl

@[simp] theorem Voice.stayInStage_env (x : Int) (V : Voice) :
    (V.stayInStage x).env = x := rfl

@[simp] theorem Voice.stayInStage_envStart (x : Int) (V : Voice) :
    (V.stayInStage x).envStart = V.envStart := rfl

@[simp] theorem Voice.stayInStage_velocity (x : Int) (V : Voice) :
    (V.stayInStage x).velocity = V.velocity := rfl

/-! ### `Voice.phaseStep` -/

@[simp] theorem Voice.phaseStep_count (V : Voice) :
    V.phaseStep.count = BitVec.ofInt 14 (V.count.toNat + V.phaseIncrement) := rfl

@[simp] theorem Voice.phaseStep_frequency (V : Voice) :
    V.phaseStep.frequency = V.frequency := rfl

@[simp] theorem Voice.phaseStep_pitchBend (V : Voice) :
    V.phaseStep.pitchBend = V.pitchBend := rfl

@[simp] theorem Voice.phaseStep_modCount (V : Voice) :
    V.phaseStep.modCount = V.modCount := rfl

@[simp] theorem Voice.phaseStep_mod (V : Voice) :
    V.phaseStep.mod = V.mod := rfl

@[simp] theorem Voice.phaseStep_gate (V : Voice) :
    V.phaseStep.gate = V.gate := rfl

@[simp] theorem Voice.phaseStep_adsrState (V : Voice) :
    V.phaseStep.adsrState = V.adsrState := rfl

@[simp] theorem Voice.phaseStep_envCount (V : Voice) :
    V.phaseStep.envCount = V.envCount := rfl

@[simp] theorem Voice.phaseStep_env (V : Voice) :
    V.phaseStep.env = V.env := rfl

@[simp] theorem Voice.phaseStep_envStart (V : Voice) :
    V.phaseStep.envStart = V.envStart := rfl

@[simp] theorem Voice.phaseStep_velocity (V : Voice) :
    V.phaseStep.velocity = V.velocity := rfl

/-! ### `ChannelRegs.setEnable` -/

@[simp] theorem ChannelRegs.setEnable_enable (x : Bool) (r : ChannelRegs) :
    (r.setEnable x).enable = x := rfl

@[simp] theorem ChannelRegs.setEnable_waveform (x : Bool) (r : ChannelRegs) :
    (r.setEnable x).waveform = r.waveform := rfl

@[simp] theorem ChannelRegs.setEnable_volume (x : Bool) (r : ChannelRegs) :
    (r.setEnable x).volume = r.volume := rfl

@[simp] theorem ChannelRegs.setEnable_outVal (x : Bool) (r : ChannelRegs) :
    (r.setEnable x).outVal = r.outVal := rfl

@[simp] theorem ChannelRegs.setEnable_outEn (x : Bool) (r : ChannelRegs) :
    (r.setEnable x).outEn = x := rfl

/-! ### `ChannelRegs.setWaveform` -/

@[simp] theorem ChannelRegs.setWaveform_enable (x : Wave) (r : ChannelRegs) :
    (r.setWaveform x).enable = r.enable := rfl

@[simp] theorem ChannelRegs.setWaveform_waveform (x : Wave) (r : ChannelRegs) :
    (r.setWaveform x).waveform = x := rfl

@[simp] theorem ChannelRegs.setWaveform_volume (x : Wave) (r : ChannelRegs) :
    (r.setWaveform x).volume = r.volume := rfl

@[simp] theorem ChannelRegs.setWaveform_outVal (x : Wave) (r : ChannelRegs) :
    (r.setWaveform x).outVal = r.outVal := rfl

@[simp] theorem ChannelRegs.setWaveform_outEn (x : Wave) (r : ChannelRegs) :
    (r.setWaveform x).outEn = r.outEn := rfl

/-! ### `ChannelRegs.setVolume` -/

@[simp] theorem ChannelRegs.setVolume_enable (x : Data7) (r : ChannelRegs) :
    (r.setVolume x).enable = r.enable := rfl

@[simp] theorem ChannelRegs.setVolume_waveform (x : Data7) (r : ChannelRegs) :
    (r.setVolume x).waveform = r.waveform := rfl

@[simp] theorem ChannelRegs.setVolume_volume (x : Data7) (r : ChannelRegs) :
    (r.setVolume x).volume = x := rfl

@[simp] theorem ChannelRegs.setVolume_outVal (x : Data7) (r : ChannelRegs) :
    (r.setVolume x).outVal = r.outVal := rfl

@[simp] theorem ChannelRegs.setVolume_outEn (x : Data7) (r : ChannelRegs) :
    (r.setVolume x).outEn = r.outEn := rfl

/-! ### `haltBlock` -/

@[simp] theorem haltBlock_melodic (s : State) :
    (haltBlock s).melodic = s.melodic := rfl

@[simp] theorem haltBlock_auxiliary (s : State) :
    (haltBlock s).auxiliary = s.auxiliary := rfl

@[simp] theorem haltBlock_framing (s : State) :
    (haltBlock s).framing = s.framing := rfl

@[simp] theorem haltBlock_halted (s : State) :
    (haltBlock s).halted = true := rfl

@[simp] theorem haltBlock_inputs (s : State) :
    (haltBlock s).inputs = s.inputs := rfl

/-! ### `resetBlock` -/

@[simp] theorem resetBlock_melodic (s : State) :
    (resetBlock s).melodic = State.reset.melodic := rfl

@[simp] theorem resetBlock_auxiliary (s : State) :
    (resetBlock s).auxiliary = State.reset.auxiliary := rfl

@[simp] theorem resetBlock_framing (s : State) :
    (resetBlock s).framing = State.reset.framing := rfl

@[simp] theorem resetBlock_halted (s : State) :
    (resetBlock s).halted = State.reset.halted := rfl

@[simp] theorem resetBlock_inputs (s : State) :
    (resetBlock s).inputs = s.inputs := rfl

/-! ### `deliver` -/

@[simp] theorem deliver_melodic (e : Event) (s : State) :
    (deliver e s).melodic = s.melodic := rfl

@[simp] theorem deliver_auxiliary (e : Event) (s : State) :
    (deliver e s).auxiliary = s.auxiliary := rfl

@[simp] theorem deliver_framing (e : Event) (s : State) :
    (deliver e s).framing = s.framing := rfl

@[simp] theorem deliver_halted (e : Event) (s : State) :
    (deliver e s).halted = s.halted := rfl

@[simp] theorem deliver_inputs (e : Event) (s : State) :
    (deliver e s).inputs = e :: s.inputs := rfl

/-! ### `closeMessage` -/

@[simp] theorem closeMessage_melodic (s : State) :
    (closeMessage s).melodic = s.melodic := rfl

@[simp] theorem closeMessage_auxiliary (s : State) :
    (closeMessage s).auxiliary = s.auxiliary := rfl

@[simp] theorem closeMessage_framing (s : State) :
    (closeMessage s).framing = { s.framing with mpState := .idle, mpNeed := 0 } := rfl

@[simp] theorem closeMessage_halted (s : State) :
    (closeMessage s).halted = s.halted := rfl

@[simp] theorem closeMessage_inputs (s : State) :
    (closeMessage s).inputs = s.inputs := rfl

/-! ### `tick` -/

@[simp] theorem tick_melodic (s : State) :
    (tick s).melodic = mapVec Channel.step s.melodic := rfl

@[simp] theorem tick_auxiliary (s : State) :
    (tick s).auxiliary = mapVec Channel.step s.auxiliary := rfl

@[simp] theorem tick_framing (s : State) :
    (tick s).framing = s.framing := rfl

@[simp] theorem tick_halted (s : State) :
    (tick s).halted = s.halted := rfl

@[simp] theorem tick_inputs (s : State) :
    (tick s).inputs = s.inputs := rfl

/-! ### `Voice.modStep` -/

@[simp] theorem Voice.modStep_count (V : Voice) : V.modStep.count = V.count := by
  unfold Voice.modStep; split <;> rfl

@[simp] theorem Voice.modStep_frequency (V : Voice) : V.modStep.frequency = V.frequency := by
  unfold Voice.modStep; split <;> rfl

@[simp] theorem Voice.modStep_pitchBend (V : Voice) : V.modStep.pitchBend = V.pitchBend := by
  unfold Voice.modStep; split <;> rfl

@[simp] theorem Voice.modStep_modCount (V : Voice) :
    V.modStep.modCount =
      if V.mod = 0 then V.modCount else BitVec.ofNat 10 (V.modCount.toNat + Config.modStep) := by
  unfold Voice.modStep; split <;> rfl

@[simp] theorem Voice.modStep_mod (V : Voice) : V.modStep.mod = V.mod := by
  unfold Voice.modStep; split <;> rfl

@[simp] theorem Voice.modStep_gate (V : Voice) : V.modStep.gate = V.gate := by
  unfold Voice.modStep; split <;> rfl

@[simp] theorem Voice.modStep_adsrState (V : Voice) : V.modStep.adsrState = V.adsrState := by
  unfold Voice.modStep; split <;> rfl

@[simp] theorem Voice.modStep_envCount (V : Voice) : V.modStep.envCount = V.envCount := by
  unfold Voice.modStep; split <;> rfl

@[simp] theorem Voice.modStep_env (V : Voice) : V.modStep.env = V.env := by
  unfold Voice.modStep; split <;> rfl

@[simp] theorem Voice.modStep_envStart (V : Voice) : V.modStep.envStart = V.envStart := by
  unfold Voice.modStep; split <;> rfl

@[simp] theorem Voice.modStep_velocity (V : Voice) : V.modStep.velocity = V.velocity := by
  unfold Voice.modStep; split <;> rfl

end Sys2Proof.Machine
end

