-- ==== Sys2Proof/Laws/Ops.lean ====
section
/-! SUPPORT. What the shared operations on the state do, said once through the views `regs?` and
`voice?` of a channel and a voice. -/

namespace Sys2Proof.Machine

/-! ### Fixed-length lists -/

@[simp] theorem getElem_mapVec {α β : Type} {n : Nat} (f : α → β) (v : Vector α n) (k : Nat)
    (h : k < n) : (mapVec f v)[k] = f v[k] := by
  simp [mapVec]

@[simp] theorem getElem?_mapVec {α β : Type} {n : Nat} (f : α → β) (v : Vector α n) (k : Nat) :
    (mapVec f v)[k]? = v[k]?.map f := by
  by_cases h : k < n <;> simp [h]

theorem getElem_modifyVec {α : Type} {n : Nat} (v : Vector α n) (j k : Nat) (f : α → α)
    (h : k < n) : (modifyVec v j f)[k] = if k = j then f v[k] else v[k] := by
  simp [modifyVec]

theorem getElem?_modifyVec {α : Type} {n : Nat} (v : Vector α n) (j k : Nat) (f : α → α) :
    (modifyVec v j f)[k]? = if k = j then v[k]?.map f else v[k]? := by
  by_cases h : k < n <;> by_cases e : k = j <;> simp [modifyVec, h, e]
  all_goals (subst e; simp [h])

/-! ### Which channels and voices there are -/

/-- `regs?` in the spec's numbers. -/
theorem regs?_eq (s : State) (c : Nat) : s.regs? c =
    if c < 4 then s.melodic[c]?.map (·.toChannelRegs)
    else s.auxiliary[c - 4]?.map (·.toChannelRegs) := rfl

/-- `voice?` in the spec's numbers. -/
theorem voice?_eq (s : State) (c v : Nat) : s.voice? c v =
    if c < 4 then s.melodic[c]?.bind (·.voices[v]?)
    else s.auxiliary[c - 4]?.bind (·.voices[v]?) := rfl

/-- `NV(c)` in the spec's numbers (R6). -/
theorem nv_eq (c : Nat) : Config.nv c = if c < 4 then 4 else 1 := rfl

/-- The seven channels exist in every state (R22). -/
@[simp] theorem regs?_isSome (s : State) (c : Nat) : (s.regs? c).isSome = true ↔ c < 7 := by
  rw [regs?_eq]
  by_cases h : c < 4
  · simp [h]; omega
  · simp [h]; show c - 4 < 3 ↔ c < 7; omega

/-- A voice exists exactly when its channel does and its index is below `NV(c)` (R26, R40). -/
@[simp] theorem voice?_isSome (s : State) (c v : Nat) :
    (s.voice? c v).isSome = true ↔ c < 7 ∧ v < Config.nv c := by
  rw [voice?_eq, nv_eq]
  by_cases h : c < 4
  · simp [h]; omega
  · by_cases h7 : c < 7
    · have : c - 4 < 3 := by omega
      simp [h, h7, this]
    · have : ¬ c - 4 < 3 := by omega
      simp [h, h7, this]

/-! ### Changing a channel -/

@[simp] theorem modifyRegs_framing (s : State) (c : Nat) (f : ChannelRegs → ChannelRegs) :
    (s.modifyRegs c f).framing = s.framing := by
  unfold State.modifyRegs State.modifyChannel; split <;> rfl

@[simp] theorem modifyRegs_halted (s : State) (c : Nat) (f : ChannelRegs → ChannelRegs) :
    (s.modifyRegs c f).halted = s.halted := by
  unfold State.modifyRegs State.modifyChannel; split <;> rfl

@[simp] theorem modifyRegs_inputs (s : State) (c : Nat) (f : ChannelRegs → ChannelRegs) :
    (s.modifyRegs c f).inputs = s.inputs := by
  unfold State.modifyRegs State.modifyChannel; split <;> rfl

theorem regs?_modifyRegs (s : State) (c c' : Nat) (f : ChannelRegs → ChannelRegs) :
    (s.modifyRegs c f).regs? c' = if c' = c then (s.regs? c').map f else s.regs? c' := by
  unfold State.modifyRegs State.modifyChannel State.regs?
  by_cases hc : c < 4 <;> by_cases hc' : c' < 4 <;>
    simp [hc, hc', getElem?_modifyVec, getElem_modifyVec]
  · split <;> rfl
  · omega
  · omega
  · by_cases e : c' = c
    · subst e; simp [Function.comp_def]
    · simp [e, show ¬ c' - 4 = c - 4 by omega]

@[simp] theorem voice?_modifyRegs (s : State) (c c' v' : Nat) (f : ChannelRegs → ChannelRegs) :
    (s.modifyRegs c f).voice? c' v' = s.voice? c' v' := by
  unfold State.modifyRegs State.modifyChannel State.voice?
  by_cases hc : c < 4 <;> by_cases hc' : c' < 4 <;>
    simp [hc, hc', getElem?_modifyVec, getElem_modifyVec]
  · split <;> rfl
  · split <;> simp [Option.bind_map]

@[simp] theorem modifyVoice_framing (s : State) (c v : Nat) (f : Voice → Voice) :
    (s.modifyVoice c v f).framing = s.framing := by
  unfold State.modifyVoice State.modifyChannel; split <;> rfl

@[simp] theorem modifyVoice_halted (s : State) (c v : Nat) (f : Voice → Voice) :
    (s.modifyVoice c v f).halted = s.halted := by
  unfold State.modifyVoice State.modifyChannel; split <;> rfl

@[simp] theorem modifyVoice_inputs (s : State) (c v : Nat) (f : Voice → Voice) :
    (s.modifyVoice c v f).inputs = s.inputs := by
  unfold State.modifyVoice State.modifyChannel; split <;> rfl

@[simp] theorem regs?_modifyVoice (s : State) (c v c' : Nat) (f : Voice → Voice) :
    (s.modifyVoice c v f).regs? c' = s.regs? c' := by
  unfold State.modifyVoice State.modifyChannel State.regs?
  by_cases hc : c < 4 <;> by_cases hc' : c' < 4 <;>
    simp [hc, hc', getElem?_modifyVec, getElem_modifyVec]
  · split <;> rfl
  · split <;> simp [Function.comp_def]

theorem voice?_modifyVoice (s : State) (c v c' v' : Nat) (f : Voice → Voice) :
    (s.modifyVoice c v f).voice? c' v' =
      if c' = c ∧ v' = v then (s.voice? c' v').map f else s.voice? c' v' := by
  unfold State.modifyVoice State.modifyChannel State.voice?
  by_cases hc : c < 4 <;> by_cases hc' : c' < 4 <;>
    simp [hc, hc', getElem?_modifyVec, getElem_modifyVec]
  · by_cases e : c' = c <;> by_cases ev : v' = v <;> simp [getElem?_modifyVec, e, ev]
  · omega
  · omega
  · by_cases e : c' = c
    · subst e
      cases h : s.auxiliary[c' - 4]? <;> by_cases ev : v' = v <;> simp [getElem?_modifyVec, ev]
    · simp [e, show ¬ c' - 4 = c - 4 by omega]

/-- `modifyRegs` changes the registers of its channel and nothing else. -/
theorem modifyRegs_changesOnly (s : State) (c : Nat) (f : ChannelRegs → ChannelRegs) :
    ChangesOnlyRegs s (s.modifyRegs c f) c f where
  changed := by simp [regs?_modifyRegs]
  otherRegs c' h := by simp [regs?_modifyRegs, h]
  voices := by simp
  halted := by simp
  inputs := by simp

/-- `modifyVoice` changes its voice and nothing else. -/
theorem modifyVoice_changesOnly (s : State) (c v : Nat) (f : Voice → Voice) :
    ChangesOnlyVoice s (s.modifyVoice c v f) c v f where
  changed := by simp [voice?_modifyVoice]
  otherVoices c' v' h := by simp [voice?_modifyVoice, h]
  regs := by simp
  halted := by simp
  inputs := by simp

/-! ### Commands on a channel or a voice -/

theorem validChannel_iff (ch : Nibble) : validChannel ch = true ↔ ch.toNat < 7 := by
  unfold validChannel
  rw [decide_eq_true_iff]
  rfl

theorem validVoice_iff (ch : Nibble) (vc : BitVec 2) :
    validVoice ch vc = true ↔ ch.toNat < 7 ∧ vc.toNat < Config.nv ch.toNat := by
  simp [validVoice, validChannel_iff]

/-- The channel a MIDI nibble names always exists (R203). -/
theorem midiChannel_lt (sub : Nibble) : midiChannel sub < 7 := by
  unfold midiChannel Config.numChannels; split <;> omega

/-- What a command on the registers of a channel does (R170). -/
theorem onChannel_spec (ch : Nibble) (f : ChannelRegs → ChannelRegs) (s : State) :
    (ch.toNat < 7 → ChangesOnlyRegs s (onChannel ch f s) ch.toNat f) ∧
      (7 ≤ ch.toNat → onChannel ch f s = s) := by
  unfold onChannel
  split
  · next h =>
    rw [validChannel_iff] at h
    exact ⟨fun _ => modifyRegs_changesOnly _ _ _, fun h' => by omega⟩
  · next h =>
    rw [validChannel_iff] at h
    exact ⟨fun h' => absurd h' h, fun _ => rfl⟩

/-- What a command on a voice does (R170). -/
theorem onVoice_spec (ch : Nibble) (vc : BitVec 2) (f : Voice → Voice) (s : State) :
    (ch.toNat < 7 → vc.toNat < Config.nv ch.toNat →
      ChangesOnlyVoice s (onVoice ch vc f s) ch.toNat vc.toNat f) ∧
      (¬(ch.toNat < 7 ∧ vc.toNat < Config.nv ch.toNat) → onVoice ch vc f s = s) := by
  unfold onVoice
  split
  · next h =>
    rw [validVoice_iff] at h
    exact ⟨fun _ _ => modifyVoice_changesOnly _ _ _ _, fun h' => absurd h h'⟩
  · next h =>
    rw [validVoice_iff] at h
    exact ⟨fun h1 h2 => absurd ⟨h1, h2⟩ h, fun _ => rfl⟩

@[simp] theorem onChannel_framing (ch : Nibble) (f : ChannelRegs → ChannelRegs) (s : State) :
    (onChannel ch f s).framing = s.framing := by
  unfold onChannel; split <;> simp

@[simp] theorem onVoice_framing (ch : Nibble) (vc : BitVec 2) (f : Voice → Voice) (s : State) :
    (onVoice ch vc f s).framing = s.framing := by
  unfold onVoice; split <;> simp

/-! ### The halt -/

@[simp] theorem whenRunning_running (f : State → State) (s : State) (h : s.halted = false) :
    whenRunning f s = .next (f s) := by
  simp [whenRunning, h]

@[simp] theorem whenRunning_halted (f : State → State) (s : State) (h : s.halted = true) :
    whenRunning f s = .fault .halted := by
  simp [whenRunning, h]

/-- An event that answers a next state found the block running, and did its effect. -/
theorem whenRunning_next {f : State → State} {s t : State} (h : whenRunning f s = .next t) :
    s.halted = false ∧ t = f s := by
  unfold whenRunning at h
  split at h
  · cases h
  · next hh => cases h; exact ⟨by simpa using hh, rfl⟩

/-! ### The tick -/

theorem step_regs {nv : Nat} (C : Channel nv) :
    C.step.toChannelRegs =
      if C.enable then { C.toChannelRegs with outVal := BitVec.ofInt 10 C.level }
      else C.toChannelRegs := by
  unfold Channel.step; split <;> rfl

theorem step_voices {nv : Nat} (C : Channel nv) :
    C.step.voices =
      if C.enable then mapVec (fun V => (voiceStep C.waveform V).1) C.voices else C.voices := by
  unfold Channel.step; split <;> rfl

/-- A voice after a tick (R123, R146): stepped when its channel is enabled, else untouched. -/
theorem voice?_tick (s : State) (c v : Nat) (r : ChannelRegs) (h : s.regs? c = some r) :
    (tick s).voice? c v = if r.enable then (s.voice? c v).map Voice.advance else s.voice? c v := by
  unfold State.regs? at h
  unfold State.voice?
  split at h
  · next hc =>
    have h4 : c < 4 := hc
    simp [h4] at h
    simp [h4, step_voices, ← h]
    split <;> simp [voiceStep]
  · next hc =>
    have h4 : ¬ c < 4 := hc
    cases hm : s.auxiliary[c - 4]? with
    | none => simp [hm] at h
    | some C =>
      simp [hm] at h; subst h
      simp [h4, hm, step_voices]
      split <;> simp [voiceStep]

/-- The registers of a channel after a tick: an enabled channel's output is written and nothing else
(R123, R145, R146). -/
theorem regs?_tick (s : State) (c : Nat) (r : ChannelRegs) (h : s.regs? c = some r) :
    ∃ x : BitVec 10,
      (tick s).regs? c = some (if r.enable then { r with outVal := x } else r) := by
  rw [regs?_eq] at *
  split at h <;> rename_i hc
  all_goals
    simp only [hc, if_true, if_false, tick_melodic, tick_auxiliary, getElem?_mapVec] at *
    obtain ⟨C, hC, rfl⟩ := Option.map_eq_some_iff.1 h
    rw [hC]
    exact ⟨BitVec.ofInt 10 C.level, by simp [step_regs]⟩

/-- What channel `c` contributes to its mix on a tick: the sum of its voices' outputs (R142). -/
theorem mixSum_eq {nv : Nat} (C : Channel nv) :
    C.mixSum = (C.voices.toList.map fun V => (voiceStep C.waveform V).2).sum := by
  unfold Channel.mixSum
  congr 1
  apply List.ext_getElem <;> simp

end Sys2Proof.Machine
end

