-- ==== Sys2Proof/Laws/Midi.lean ====
section
/-! SUPPORT. What a MIDI byte does, said once: a dispatch changes at most voice 0 of one channel and
never the framing; the framing operations change nothing else. -/

namespace Sys2Proof.Machine

/-- A voice is unchanged by the identity. -/
theorem modifyVec_id {α : Type} {n : Nat} (v : Vector α n) (k : Nat) :
    modifyVec v k (fun x => x) = v := by
  ext i hi
  simp [getElem_modifyVec]

theorem modifyVoice_id (s : State) (c v : Nat) : s.modifyVoice c v (fun V => V) = s := by
  unfold State.modifyVoice State.modifyChannel
  simp only [modifyVec_id]
  split <;> rfl

/-- What a dispatch can do: change voice 0 of the channel the nibble names, for the three messages
that are dispatched, or nothing (R207 to R214). -/
theorem dispatch_cases (t sub : Nibble) (p : Payload) (s : State) :
    (∃ k vel, t = 0x8 ∧ p = .two k vel ∧ dispatch t sub p s =
      s.modifyVoice (midiChannel sub) 0 fun V =>
        ((V.stop).setFrequency (Config.noteFreq k)).setVelocity vel) ∨
    (∃ k vel, t = 0x9 ∧ p = .two k vel ∧ dispatch t sub p s =
      s.modifyVoice (midiChannel sub) 0 fun V =>
        ((V.start).setFrequency (Config.noteFreq k)).setVelocity vel) ∨
    (∃ d1 d2, t = 0xE ∧ p = .two d1 d2 ∧ dispatch t sub p s =
      s.modifyVoice (midiChannel sub) 0 (Voice.setPitchBend (bendValue d1 d2))) ∨
    dispatch t sub p s = s := by
  unfold dispatch
  split
  · next k vel => exact .inl ⟨k, vel, rfl, rfl, rfl⟩
  · next k vel => exact .inr (.inl ⟨k, vel, rfl, rfl, rfl⟩)
  · next d1 d2 => exact .inr (.inr (.inl ⟨d1, d2, rfl, rfl, rfl⟩))
  · exact .inr (.inr (.inr rfl))

/-- In short: some change of voice 0 of that channel. -/
theorem dispatch_modifies (t sub : Nibble) (p : Payload) (s : State) :
    ∃ f, dispatch t sub p s = s.modifyVoice (midiChannel sub) 0 f := by
  obtain ⟨_, _, _, _, h⟩ | ⟨_, _, _, _, h⟩ | ⟨_, _, _, _, h⟩ | h := dispatch_cases t sub p s
  · exact ⟨_, h⟩
  · exact ⟨_, h⟩
  · exact ⟨_, h⟩
  · exact ⟨fun V => V, by rw [h, modifyVoice_id]⟩

@[simp] theorem dispatch_none (t sub : Nibble) (s : State) : dispatch t sub .none s = s := by
  unfold dispatch; split <;> simp_all

@[simp] theorem dispatch_one (t sub : Nibble) (d : Data7) (s : State) :
    dispatch t sub (.one d) s = s := by
  unfold dispatch; split <;> simp_all

@[simp] theorem dispatch_framing (t sub : Nibble) (p : Payload) (s : State) :
    (dispatch t sub p s).framing = s.framing := by
  obtain ⟨f, h⟩ := dispatch_modifies t sub p s; simp [h]

@[simp] theorem dispatch_halted (t sub : Nibble) (p : Payload) (s : State) :
    (dispatch t sub p s).halted = s.halted := by
  obtain ⟨f, h⟩ := dispatch_modifies t sub p s; simp [h]

@[simp] theorem dispatch_inputs (t sub : Nibble) (p : Payload) (s : State) :
    (dispatch t sub p s).inputs = s.inputs := by
  obtain ⟨f, h⟩ := dispatch_modifies t sub p s; simp [h]

@[simp] theorem regs?_dispatch (t sub : Nibble) (p : Payload) (s : State) (c : Nat) :
    (dispatch t sub p s).regs? c = s.regs? c := by
  obtain ⟨f, h⟩ := dispatch_modifies t sub p s; simp [h]

/-! ### The framing operations -/

@[simp] theorem regs?_withFraming (s : State) (f : Framing) (c : Nat) :
    State.regs? { s with framing := f } c = s.regs? c := rfl

@[simp] theorem voice?_withFraming (s : State) (f : Framing) (c v : Nat) :
    State.voice? { s with framing := f } c v = s.voice? c v := rfl

@[simp] theorem regs?_withInputs (s : State) (es : List Event) (c : Nat) :
    State.regs? { s with inputs := es } c = s.regs? c := rfl

@[simp] theorem voice?_withInputs (s : State) (es : List Event) (c v : Nat) :
    State.voice? { s with inputs := es } c v = s.voice? c v := rfl

@[simp] theorem regs?_closeMessage (s : State) (c : Nat) :
    (closeMessage s).regs? c = s.regs? c := rfl

@[simp] theorem voice?_closeMessage (s : State) (c v : Nat) :
    (closeMessage s).voice? c v = s.voice? c v := rfl

@[simp] theorem regs?_haltBlock (s : State) (c : Nat) : (haltBlock s).regs? c = s.regs? c := rfl

@[simp] theorem voice?_haltBlock (s : State) (c v : Nat) :
    (haltBlock s).voice? c v = s.voice? c v := rfl

/-- A status byte in `IDLE` (R201). -/
theorem openMessage_eq (t sub : Nibble) (s : State) :
    openMessage t sub s =
      if dataCount t sub = 0 then s
      else
        { s with
          framing :=
            { s.framing with
              mpState := .data, mpType := t, mpSub := sub, mpNeed := dataCount t sub } } := by
  unfold openMessage; split <;> simp

/-- The first of two data bytes (R206). -/
theorem takeData_first (d : Data7) (s : State) (h : s.framing.mpNeed = 2) :
    takeData d s = { s with framing := { s.framing with mpD1 := d, mpNeed := 1 } } := by
  simp [takeData, h]

/-- A last data byte (R206). -/
theorem takeData_last (d : Data7) (s : State) (h : s.framing.mpNeed ≠ 2) :
    takeData d s =
      closeMessage
        (dispatch s.framing.mpType s.framing.mpSub
          (if dataCount s.framing.mpType s.framing.mpSub = 2 then .two s.framing.mpD1 d else .one d)
          s) := by
  simp [takeData, h]

/-- What a MIDI byte can do to channels and voices: nothing, or the dispatch of a complete message
at a data byte in `DATA`. -/
theorem takeData_views (d : Data7) (s : State) :
    (∀ c, (takeData d s).regs? c = s.regs? c) ∧ (takeData d s).halted = s.halted ∧
      (takeData d s).inputs = s.inputs ∧
      ((s.framing.mpNeed = 2 ∧ ∀ c v, (takeData d s).voice? c v = s.voice? c v) ∨
        (s.framing.mpNeed ≠ 2 ∧ ∃ p, ∀ c v,
          (takeData d s).voice? c v =
            (dispatch s.framing.mpType s.framing.mpSub p s).voice? c v)) := by
  by_cases h : s.framing.mpNeed = 2
  · rw [takeData_first d s h]
    exact ⟨by simp, rfl, rfl, .inl ⟨h, by simp⟩⟩
  · rw [takeData_last d s h]
    exact ⟨by simp, by simp, by simp, .inr ⟨h, _, fun c v => by rw [voice?_closeMessage]⟩⟩

end Sys2Proof.Machine
end

