-- ==== Sys2Proof/Laws/Synthesis.lean ====
section
/-! SUPPORT. What a tick does to one voice, said once: which fields the envelope and the oscillator
leave alone, the cases of an envelope step, and the ranges of the values it computes. -/

namespace Sys2Proof.Machine

/-! ### Fields no envelope step writes -/

theorem envelopeStep_leaves (V : Voice) :
    V.envelopeStep.count = V.count ∧ V.envelopeStep.frequency = V.frequency ∧
      V.envelopeStep.pitchBend = V.pitchBend ∧ V.envelopeStep.modCount = V.modCount ∧
      V.envelopeStep.mod = V.mod ∧ V.envelopeStep.gate = V.gate ∧
      V.envelopeStep.velocity = V.velocity := by
  unfold Voice.envelopeStep
  split
  · unfold Voice.attackStep; split <;> simp
  · unfold Voice.decayStep; split <;> simp
  · unfold Voice.sustainStep; split <;> simp
  · unfold Voice.releaseStep; split <;> simp

@[simp] theorem envelopeStep_count (V : Voice) : V.envelopeStep.count = V.count :=
  (envelopeStep_leaves V).1
@[simp] theorem envelopeStep_frequency (V : Voice) : V.envelopeStep.frequency = V.frequency :=
  (envelopeStep_leaves V).2.1
@[simp] theorem envelopeStep_pitchBend (V : Voice) : V.envelopeStep.pitchBend = V.pitchBend :=
  (envelopeStep_leaves V).2.2.1
@[simp] theorem envelopeStep_modCount (V : Voice) : V.envelopeStep.modCount = V.modCount :=
  (envelopeStep_leaves V).2.2.2.1
@[simp] theorem envelopeStep_mod (V : Voice) : V.envelopeStep.mod = V.mod :=
  (envelopeStep_leaves V).2.2.2.2.1
@[simp] theorem envelopeStep_gate (V : Voice) : V.envelopeStep.gate = V.gate :=
  (envelopeStep_leaves V).2.2.2.2.2.1
@[simp] theorem envelopeStep_velocity (V : Voice) : V.envelopeStep.velocity = V.velocity :=
  (envelopeStep_leaves V).2.2.2.2.2.2

/-! ### The fields of a voice after a whole step -/

@[simp] theorem voiceStep_fst (w : Wave) (V : Voice) : (voiceStep w V).1 = V.advance := rfl
@[simp] theorem voiceStep_snd (w : Wave) (V : Voice) :
    (voiceStep w V).2 = voiceOutput w V V.advance := rfl

@[simp] theorem advance_frequency (V : Voice) : V.advance.frequency = V.frequency := by
  simp [Voice.advance]
@[simp] theorem advance_pitchBend (V : Voice) : V.advance.pitchBend = V.pitchBend := by
  simp [Voice.advance]
@[simp] theorem advance_mod (V : Voice) : V.advance.mod = V.mod := by simp [Voice.advance]
@[simp] theorem advance_gate (V : Voice) : V.advance.gate = V.gate := by simp [Voice.advance]
@[simp] theorem advance_velocity (V : Voice) : V.advance.velocity = V.velocity := by
  simp [Voice.advance]
@[simp] theorem advance_adsrState (V : Voice) :
    V.advance.adsrState = V.envelopeStep.adsrState := by simp [Voice.advance]
@[simp] theorem advance_envCount (V : Voice) : V.advance.envCount = V.envelopeStep.envCount := by
  simp [Voice.advance]
@[simp] theorem advance_env (V : Voice) : V.advance.env = V.envelopeStep.env := by
  simp [Voice.advance]
@[simp] theorem advance_envStart (V : Voice) : V.advance.envStart = V.envelopeStep.envStart := by
  simp [Voice.advance]

/-! ### The cases of an envelope step -/

theorem envelopeStep_attack {V : Voice} (h : V.adsrState = .attack) :
    V.envelopeStep =
      if 16383 < V.nextEnvCount then V.enterStage .decay (attackTarget V.velocity)
      else V.stayInStage (attackEnv V.velocity V.nextEnvCount) := by
  unfold Voice.envelopeStep
  rw [h]
  rfl

theorem envelopeStep_decay {V : Voice} (h : V.adsrState = .decay) :
    V.envelopeStep =
      if 16383 < V.nextEnvCount then V.enterStage .sustain 512
      else V.stayInStage (decayEnv V.envStart 512 V.nextEnvCount) := by
  unfold Voice.envelopeStep
  rw [h]
  rfl

theorem envelopeStep_sustain {V : Voice} (h : V.adsrState = .sustain) :
    V.envelopeStep =
      if V.gate then V else { V with adsrState := .release, envCount := 0 } := by
  unfold Voice.envelopeStep
  rw [h]
  rfl

theorem envelopeStep_release {V : Voice} (h : V.adsrState = .release) :
    V.envelopeStep =
      if 16383 < V.nextEnvCount then V.enterStage .attack 0
      else V.stayInStage (decayEnv V.envStart 0 V.nextEnvCount) := by
  unfold Voice.envelopeStep
  rw [h]
  rfl

/-- A counter that is not exhausted is stored whole. -/
theorem stayInStage_envCount_toNat (V : Voice) (x : Int) (h : ¬ 16383 < V.nextEnvCount) :
    (V.stayInStage x).envCount.toNat = V.nextEnvCount := by
  simp only [Voice.stayInStage_envCount, BitVec.toNat_ofNat]
  omega

/-! ### Ranges -/

theorem asr_eq (a : Int) (n : Nat) : asr a n = a / 2 ^ n := rfl

theorem tableRead_nonneg (t : Config.Table) (i : TableWord) : 0 ≤ tableRead t i :=
  Int.natCast_nonneg _

theorem tableRead_le (t : Config.Table) (i : TableWord) : tableRead t i ≤ 1023 := by
  have := (Config.tableContents t i).isLt
  unfold tableRead
  omega

theorem tableIndex_toNat (n : Nat) : (tableIndex n).toNat = n / 16 % 1024 := by
  simp [tableIndex, Config.resDiff, Config.sampleBits, Config.tableBits,
    Nat.shiftRight_eq_div_pow]

/-- A product of two bounded factors is bounded. -/
theorem mul_bounds {a b m n : Int} (ha : 0 ≤ a) (ham : a ≤ m) (hb : 0 ≤ b) (hbn : b ≤ n) :
    0 ≤ a * b ∧ a * b ≤ m * n :=
  ⟨Int.mul_nonneg ha hb, Int.mul_le_mul ham hbn hb (by omega)⟩

/-- The attack target lies in 8..1015 (R126). -/
theorem attackTarget_range (vel : Data7) : 8 ≤ attackTarget vel ∧ attackTarget vel ≤ 1015 := by
  have := vel.isLt
  simp only [attackTarget, asr_eq, Config.envRange, Config.attackScalar, Config.envShiftA,
    Config.envFloor]
  omega

/-- The attack value lies in 8..1022 (R127). -/
theorem attackEnv_range (vel : Data7) (n : Nat) : 8 ≤ attackEnv vel n ∧ attackEnv vel n ≤ 1022 := by
  have hv := vel.isLt
  have h := mul_bounds (tableRead_nonneg .attackCurve (tableIndex n))
    (tableRead_le .attackCurve (tableIndex n)) (b := (vel.toNat : Int)) (n := 127)
    (by omega) (by omega)
  simp only [attackEnv, asr_eq, Config.envRange, Config.envShiftA, Config.envFloor]
  have e : tableRead .attackCurve (tableIndex n) * 1023 * (vel.toNat : Int) =
      1023 * (tableRead .attackCurve (tableIndex n) * (vel.toNat : Int)) := by ring
  rw [e]
  omega

/-- A decay value between a start in 0..1015 and a target in 0..512 lies in 0..1014 (R128, R130). -/
theorem decayEnv_range {start target : Int} (n : Nat) (h0 : 0 ≤ start) (h1 : start ≤ 1015)
    (ht0 : 0 ≤ target) (ht1 : target ≤ 512) :
    0 ≤ decayEnv start target n ∧ decayEnv start target n ≤ 1014 := by
  have hc0 := tableRead_nonneg .decayCurve (tableIndex n)
  have hc1 := tableRead_le .decayCurve (tableIndex n)
  simp only [decayEnv, asr_eq, Config.envShiftD]
  generalize tableRead .decayCurve (tableIndex n) = k at *
  rcases le_total target start with h | h
  · obtain ⟨ha, hb⟩ := mul_bounds hc0 hc1 (b := start - target) (n := 1015 - target)
      (by omega) (by omega)
    constructor
    · omega
    · have : 1023 * (1015 - target) / 1024 + target ≤ 1014 := by omega
      have := Int.ediv_le_ediv (show (0 : Int) < 1024 by decide) hb
      omega
  · obtain ⟨ha, hb⟩ := mul_bounds hc0 hc1 (b := target - start) (n := target - start)
      (by omega) (by omega)
    have e : k * (start - target) = -(k * (target - start)) := by ring
    rw [e]
    omega

/-- A sample lies in 0..1023 (R138, R139). -/
theorem waveSample_range (w : Wave) (count : Phase) :
    0 ≤ waveSample w count ∧ waveSample w count ≤ 1023 := by
  cases w
  case square => simp only [waveSample, squareSample, Config.sqMin, Config.sqMax]; split <;> decide
  all_goals exact ⟨tableRead_nonneg _ _, tableRead_le _ _⟩

/-- A voice with an envelope in 0..1022 contributes 0..1021 (R141). -/
theorem voiceOutput_range (w : Wave) (before after : Voice) (h0 : 0 ≤ after.env)
    (h1 : after.env ≤ 1022) :
    0 ≤ voiceOutput w before after ∧ voiceOutput w before after ≤ 1021 := by
  unfold voiceOutput
  split
  · decide
  · have hs := waveSample_range w after.count
    have := mul_bounds hs.1 hs.2 h0 h1
    simp only [asr_eq, Config.outShift]
    omega

end Sys2Proof.Machine
end

