-- ==== Sys2Proof/Laws/Exec.lean ====
section
/-! SUPPORT. What an instruction, an event and a step can do, said once: every meaning is a function of
the state applied while the block is not halted. -/

namespace Sys2Proof.Machine

/-- What a status byte does. -/
abbrev statusEffect (t sub : Nibble) (s : State) : State :=
  byteEffect (maskData (statusByteOf t sub)) (openMessage t sub) s

/-- The change an instruction makes to a block that is not halted, in the shared operations. -/
def effect : Instr → State → State
  | .nop, s => s
  | .enable ch, s => onChannel ch (ChannelRegs.setEnable true) s
  | .disable ch, s => onChannel ch (ChannelRegs.setEnable false) s
  | .setWaveform ch code, s => selectWaveform ch code s
  | .setVolume ch level, s => onChannel ch (ChannelRegs.setVolume level) s
  | .voiceOn ch vc, s => onVoice ch vc Voice.start s
  | .voiceOff ch vc, s => onVoice ch vc Voice.stop s
  | .voiceFrequency ch vc freq, s => onVoice ch vc (Voice.setFrequency freq) s
  | .voiceModulation ch vc depth, s => onVoice ch vc (Voice.setModulation depth) s
  | .voiceVelocity ch vc vel, s => onVoice ch vc (Voice.setVelocity vel) s
  | .voicePitchBend ch vc bend, s => onVoice ch vc (Voice.setPitchBend bend) s
  | .updateAll, s => tick s
  | .reservedCF _, s => s
  | .noteOff sub, s => statusEffect 0x8 sub s
  | .noteOn sub, s => statusEffect 0x9 sub s
  | .polyPressure sub, s => statusEffect 0xA sub s
  | .controlChange sub, s => statusEffect 0xB sub s
  | .programChange sub, s => statusEffect 0xC sub s
  | .channelPressure sub, s => statusEffect 0xD sub s
  | .pitchBend sub, s => statusEffect 0xE sub s
  | .sysExclusive, s => statusEffect 0xF 0x0 s
  | .sysMtcQuarterFrame, s => statusEffect 0xF 0x1 s
  | .sysSongPosition, s => statusEffect 0xF 0x2 s
  | .sysSongSelect, s => statusEffect 0xF 0x3 s
  | .sysUndefinedF4, s => statusEffect 0xF 0x4 s
  | .sysUndefinedF5, s => statusEffect 0xF 0x5 s
  | .sysTuneRequest, s => statusEffect 0xF 0x6 s
  | .sysEndExclusive, s => statusEffect 0xF 0x7 s
  | .rtTimingClock, s => statusEffect 0xF 0x8 s
  | .rtUndefinedF9, s => statusEffect 0xF 0x9 s
  | .rtStart, s => statusEffect 0xF 0xA s
  | .rtContinue, s => statusEffect 0xF 0xB s
  | .rtStop, s => statusEffect 0xF 0xC s
  | .rtUndefinedFD, s => statusEffect 0xF 0xD s
  | .rtActiveSensing, s => statusEffect 0xF 0xE s
  | .rtSystemReset, s => statusEffect 0xF 0xF s
  | .terminator, s => byteEffect 0 (fun s => s) s
  | .strayData d, s => byteEffect d (fun s => s) s
  | .dataByte d, s => byteEffect d (fun s => s) s

/-- Every meaning is its effect, applied while the block is not halted (R170, R200, R255). -/
theorem exec_eq (i : Instr) (s : State) : exec i s = whenRunning (effect i) s := by
  cases i <;> rfl

/-- An instruction given to a running block completes with its effect. -/
theorem exec_running (i : Instr) (s : State) (h : s.halted = false) :
    exec i s = .next (effect i s) := by
  rw [exec_eq, whenRunning_running _ _ h]

/-! ### Events -/

/-- What an event that has a step did (R13). -/
theorem takeEvent_cases {e : Event} {s t : State} (h : takeEvent e s = .next t) :
    (e = .reset ∧ t = resetBlock s) ∨
      s.halted = false ∧
        ((e = .tick ∧ t = tick s) ∨ (∃ w, e = .cmd w ∧ t = effect (decodeCommand w) s) ∨
          (∃ b, e = .midi b ∧ t = effect (decodeMidi s.framing.mpState b) s) ∨
          (e = .rxOverflow ∧ t = haltBlock s)) := by
  cases e with
  | reset => cases h; exact .inl ⟨rfl, rfl⟩
  | tick => obtain ⟨a, b⟩ := whenRunning_next h; exact .inr ⟨a, .inl ⟨rfl, b⟩⟩
  | cmd w =>
    simp only [takeEvent, exec_eq] at h
    obtain ⟨a, b⟩ := whenRunning_next h
    exact .inr ⟨a, .inr (.inl ⟨w, rfl, b⟩)⟩
  | midi m =>
    simp only [takeEvent, exec_eq] at h
    obtain ⟨a, b⟩ := whenRunning_next h
    exact .inr ⟨a, .inr (.inr (.inl ⟨m, rfl, b⟩))⟩
  | rxOverflow => obtain ⟨a, b⟩ := whenRunning_next h; exact .inr ⟨a, .inr (.inr (.inr ⟨rfl, b⟩))⟩

/-- What a command may do to the registers of channel `c`: it writes no output, keeps `out_en` equal
to `enable` and gives a melodic channel no noise (R172 to R175). -/
structure IsRegsWrite (c : Nat) (f : ChannelRegs → ChannelRegs) : Prop where
  outVal : ∀ r, (f r).outVal = r.outVal
  outEn : ∀ r, r.outEn = r.enable → (f r).outEn = (f r).enable
  waveform : ∀ r, c < 4 → r.waveform ≠ .noise → (f r).waveform ≠ .noise

/-- What a command that sets operands of a voice may do: the envelope, the two phases and the gate
stay (R178 to R181). -/
structure IsOperandWrite (f : Voice → Voice) : Prop where
  count : ∀ V, (f V).count = V.count
  modCount : ∀ V, (f V).modCount = V.modCount
  gate : ∀ V, (f V).gate = V.gate
  adsrState : ∀ V, (f V).adsrState = V.adsrState
  envCount : ∀ V, (f V).envCount = V.envCount
  env : ∀ V, (f V).env = V.env
  envStart : ∀ V, (f V).envStart = V.envStart

theorem isRegsWrite_setEnable (c : Nat) (on : Bool) : IsRegsWrite c (ChannelRegs.setEnable on) :=
  ⟨fun _ => rfl, fun _ _ => rfl, fun _ _ h => h⟩

theorem isRegsWrite_setVolume (c : Nat) (l : Data7) : IsRegsWrite c (ChannelRegs.setVolume l) :=
  ⟨fun _ => rfl, fun _ h => h, fun _ _ h => h⟩

theorem isRegsWrite_setWaveform (ch : Nibble) (w : Wave) (h : waveAllowed ch w = true) :
    IsRegsWrite ch.toNat (ChannelRegs.setWaveform w) := by
  refine ⟨fun _ => rfl, fun _ h => h, fun r hc _ hw => ?_⟩
  have e : w = .noise := hw
  subst e
  simp [waveAllowed, nv_eq, hc] at h

theorem isOperandWrite_setFrequency (d : BitVec 16) : IsOperandWrite (Voice.setFrequency d) := by
  constructor <;> intro V <;> rfl

theorem isOperandWrite_setModulation (d : BitVec 16) : IsOperandWrite (Voice.setModulation d) := by
  constructor <;> intro V <;> rfl

theorem isOperandWrite_setVelocity (d : Data7) : IsOperandWrite (Voice.setVelocity d) := by
  constructor <;> intro V <;> rfl

theorem isOperandWrite_setPitchBend (d : BitVec 14) : IsOperandWrite (Voice.setPitchBend d) := by
  constructor <;> intro V <;> rfl

/-- A command word decodes to a command. -/
theorem decodeCommand_cases (w : CommandWord) {P : Instr → Prop}
    (nop : P .nop) (enable : ∀ ch, P (.enable ch)) (disable : ∀ ch, P (.disable ch))
    (setWaveform : ∀ ch d, P (.setWaveform ch d)) (setVolume : ∀ ch d, P (.setVolume ch d))
    (voiceOn : ∀ ch vc, P (.voiceOn ch vc)) (voiceOff : ∀ ch vc, P (.voiceOff ch vc))
    (voiceFrequency : ∀ ch vc d, P (.voiceFrequency ch vc d))
    (voiceModulation : ∀ ch vc d, P (.voiceModulation ch vc d))
    (voiceVelocity : ∀ ch vc d, P (.voiceVelocity ch vc d))
    (voicePitchBend : ∀ ch vc d, P (.voicePitchBend ch vc d))
    (updateAll : P .updateAll) (reservedCF : ∀ op, P (.reservedCF op)) : P (decodeCommand w) := by
  unfold decodeCommand
  split <;> simp only [*]

/-- What a command does, said once (41_control.md): nothing, a write of the registers of one channel,
a write of one voice, or a tick. -/
theorem command_cases (w : CommandWord) (s : State) :
    (decodeCommand w = .updateAll ∧ effect (decodeCommand w) s = tick s) ∨
    (decodeCommand w ≠ .updateAll ∧
      (effect (decodeCommand w) s = s ∨
      (∃ c f, IsRegsWrite c f ∧ effect (decodeCommand w) s = s.modifyRegs c f) ∨
      (∃ ch vc, decodeCommand w = .voiceOn ch vc ∧
        effect (decodeCommand w) s = s.modifyVoice ch.toNat vc.toNat Voice.start) ∨
      (∃ c v f, (f = Voice.stop ∨ IsOperandWrite f) ∧
        effect (decodeCommand w) s = s.modifyVoice c v f))) := by
  have hc : ∀ (ch : Nibble) (f : ChannelRegs → ChannelRegs), IsRegsWrite ch.toNat f →
      (onChannel ch f s = s ∨ ∃ c g, IsRegsWrite c g ∧ onChannel ch f s = s.modifyRegs c g) := by
    intro ch f h
    unfold onChannel
    split
    · exact .inr ⟨_, _, h, rfl⟩
    · exact .inl rfl
  have hv : ∀ ch vc f, onVoice ch vc f s = s ∨
      onVoice ch vc f s = s.modifyVoice ch.toNat vc.toNat f := by
    intro ch vc f; unfold onVoice; split <;> simp
  have ho : ∀ ch vc f, (f = Voice.stop ∨ IsOperandWrite f) →
      (onVoice ch vc f s = s ∨ ∃ c v g, (g = Voice.stop ∨ IsOperandWrite g) ∧
        onVoice ch vc f s = s.modifyVoice c v g) := fun ch vc f h =>
    (hv ch vc f).imp_right fun e => ⟨_, _, _, h, e⟩
  apply decodeCommand_cases w (P := fun i =>
    (i = .updateAll ∧ effect i s = tick s) ∨
    (i ≠ .updateAll ∧
      (effect i s = s ∨ (∃ c f, IsRegsWrite c f ∧ effect i s = s.modifyRegs c f) ∨
      (∃ ch vc, i = .voiceOn ch vc ∧
        effect i s = s.modifyVoice ch.toNat vc.toNat Voice.start) ∨
      (∃ c v f, (f = Voice.stop ∨ IsOperandWrite f) ∧ effect i s = s.modifyVoice c v f))))
  case nop => exact .inr ⟨nofun, .inl rfl⟩
  case reservedCF => exact fun _ => .inr ⟨nofun, .inl rfl⟩
  case updateAll => exact .inl ⟨rfl, rfl⟩
  case enable =>
    exact fun ch => .inr ⟨nofun, (hc ch _ (isRegsWrite_setEnable _ _)).imp_right .inl⟩
  case disable =>
    exact fun ch => .inr ⟨nofun, (hc ch _ (isRegsWrite_setEnable _ _)).imp_right .inl⟩
  case setVolume =>
    exact fun ch l => .inr ⟨nofun, (hc ch _ (isRegsWrite_setVolume _ l)).imp_right .inl⟩
  case setWaveform =>
    refine fun ch code => .inr ⟨nofun, ?_⟩
    simp only [effect, selectWaveform]
    split
    · exact .inl rfl
    · next x _ =>
      split
      · next ha => exact (hc ch _ (isRegsWrite_setWaveform ch x ha)).imp_right .inl
      · exact .inl rfl
  case voiceOn =>
    exact fun ch vc => .inr ⟨nofun, (hv ch vc Voice.start).imp_right fun h =>
      .inr (.inl ⟨_, _, rfl, h⟩)⟩
  case voiceOff =>
    exact fun ch vc => .inr ⟨nofun, (ho ch vc _ (.inl rfl)).imp_right fun h => .inr (.inr h)⟩
  case voiceFrequency =>
    exact fun ch vc d => .inr ⟨nofun,
      (ho ch vc _ (.inr (isOperandWrite_setFrequency d))).imp_right fun h => .inr (.inr h)⟩
  case voiceModulation =>
    exact fun ch vc d => .inr ⟨nofun,
      (ho ch vc _ (.inr (isOperandWrite_setModulation d))).imp_right fun h => .inr (.inr h)⟩
  case voiceVelocity =>
    exact fun ch vc d => .inr ⟨nofun,
      (ho ch vc _ (.inr (isOperandWrite_setVelocity d))).imp_right fun h => .inr (.inr h)⟩
  case voicePitchBend =>
    exact fun ch vc d => .inr ⟨nofun,
      (ho ch vc _ (.inr (isOperandWrite_setPitchBend d))).imp_right fun h => .inr (.inr h)⟩

/-! ### MIDI bytes -/

/-- The effect of a system byte is that of a status byte of type 0xF. -/
theorem effect_decodeSystem (sub : Nibble) (s : State) :
    effect (decodeSystem sub) s = statusEffect 0xF sub s := by
  obtain ⟨n, rfl⟩ : ∃ n : Fin 16, sub = BitVec.ofFin n := ⟨sub.toFin, rfl⟩
  fin_cases n <;> rfl

/-- What a byte does in `IDLE` (R201, R204, R205): it opens the message its nibbles name, if that
message has data bytes. -/
theorem effect_idleByte (b : MidiByte) (s : State) (h : s.framing.mpState = .idle) :
    effect (decodeIdleByte b) s = openMessage (typeField b) (subField b) s := by
  have hs : ∀ t x, statusEffect t x s = openMessage t x s := by
    intro t x; simp [statusEffect, byteEffect, h]
  unfold decodeIdleByte
  split <;> rename_i ht <;> try rw [ht]
  all_goals try exact hs _ _
  · rw [effect_decodeSystem, hs]; rfl
  · have h0 : dataCount (typeField b) (subField b) = 0 := by
      unfold dataCount; split <;> simp_all
    rw [openMessage_eq, if_pos h0]
    split <;> simp [effect, byteEffect, h]

/-- What a byte does: in `IDLE` it may open a message, in `DATA` it is taken as data (R200). -/
theorem byte_cases (b : MidiByte) (s : State) :
    (s.framing.mpState = .idle ∧
      effect (decodeMidi s.framing.mpState b) s = openMessage (typeField b) (subField b) s) ∨
    (s.framing.mpState = .data ∧
      effect (decodeMidi s.framing.mpState b) s = takeData (maskData b) s) := by
  cases h : s.framing.mpState
  · exact .inl ⟨rfl, effect_idleByte b s h⟩
  · exact .inr ⟨rfl, by simp [decodeMidi, effect, byteEffect, h]⟩

/-! ### Steps and runs -/

/-- A running block takes the oldest event (R13). -/
theorem step_running {s : State} {e : Event} {es : List Event} (h : s.halted = false)
    (hi : s.inputs = e :: es) : step s = takeEvent e { s with inputs := es } := by
  simp [step, nextStep, runningStep, h, hi]

/-- A run whose first step has a next state goes on from there. -/
theorem coreRun_succ (M : Host.Core) (k : Nat) {s t : M.State} (h : M.step s = .next t) :
    M.run (k + 1) s = M.run k t := by
  rw [Host.Core.run, h]

/-- The same for the machine of this model. -/
theorem run_succ (k : Nat) {s t : State} (h : step s = .next t) : run (k + 1) s = run k t :=
  coreRun_succ Sys2Proof.core k h

theorem run_zero (s : State) : run 0 s = .next s := rfl

end Sys2Proof.Machine
end

