-- ==== Sys2Proof/Laws/PerInstr.lean ====
section
/-! SUPPORT. Facts about every instruction as syntax, one lemma for each constructor. The family
`EncodeFitsTableRow` holds the encoder against the rows of spec/opcode_table.json. -/

namespace Sys2Proof.Laws

/-- The width and the bits of the word an event carries; none for a single-wire event. -/
def wordOf : Event → Option (Nat × Nat)
  | .cmd w => some (32, w.toNat)
  | .midi b => some (8, b.toNat)
  | .reset => none
  | .tick => none
  | .rxOverflow => none

/-- The row of spec/opcode_table.json: its width, and the fixed field that fills its top bits, as the
field's lowest bit and its value. A data byte has no fixed field. -/
structure TableRow where
  nbits : Nat
  lo : Nat
  value : Nat
  deriving DecidableEq, Repr

/-- The table, row by row. -/
def tableRow : Instr → TableRow
  | .nop => ⟨32, 28, 0⟩
  | .enable _ => ⟨32, 28, 1⟩
  | .disable _ => ⟨32, 28, 2⟩
  | .setWaveform _ _ => ⟨32, 28, 3⟩
  | .setVolume _ _ => ⟨32, 28, 4⟩
  | .voiceOn _ _ => ⟨32, 28, 5⟩
  | .voiceOff _ _ => ⟨32, 28, 6⟩
  | .voiceFrequency _ _ _ => ⟨32, 28, 7⟩
  | .voiceModulation _ _ _ => ⟨32, 28, 8⟩
  | .voiceVelocity _ _ _ => ⟨32, 28, 9⟩
  | .voicePitchBend _ _ _ => ⟨32, 28, 0xa⟩
  | .updateAll => ⟨32, 28, 0xb⟩
  | .reservedCF _ => ⟨32, 30, 3⟩
  | .noteOff _ => ⟨8, 4, 8⟩
  | .noteOn _ => ⟨8, 4, 9⟩
  | .polyPressure _ => ⟨8, 4, 0xa⟩
  | .controlChange _ => ⟨8, 4, 0xb⟩
  | .programChange _ => ⟨8, 4, 0xc⟩
  | .channelPressure _ => ⟨8, 4, 0xd⟩
  | .pitchBend _ => ⟨8, 4, 0xe⟩
  | .sysExclusive => ⟨8, 0, 0xf0⟩
  | .sysMtcQuarterFrame => ⟨8, 0, 0xf1⟩
  | .sysSongPosition => ⟨8, 0, 0xf2⟩
  | .sysSongSelect => ⟨8, 0, 0xf3⟩
  | .sysUndefinedF4 => ⟨8, 0, 0xf4⟩
  | .sysUndefinedF5 => ⟨8, 0, 0xf5⟩
  | .sysTuneRequest => ⟨8, 0, 0xf6⟩
  | .sysEndExclusive => ⟨8, 0, 0xf7⟩
  | .rtTimingClock => ⟨8, 0, 0xf8⟩
  | .rtUndefinedF9 => ⟨8, 0, 0xf9⟩
  | .rtStart => ⟨8, 0, 0xfa⟩
  | .rtContinue => ⟨8, 0, 0xfb⟩
  | .rtStop => ⟨8, 0, 0xfc⟩
  | .rtUndefinedFD => ⟨8, 0, 0xfd⟩
  | .rtActiveSensing => ⟨8, 0, 0xfe⟩
  | .rtSystemReset => ⟨8, 0, 0xff⟩
  | .terminator => ⟨8, 0, 0⟩
  | .strayData _ => ⟨8, 7, 0⟩
  | .dataByte _ => ⟨8, 8, 0⟩

/-- The encoded word has its row's width and its row's fixed field. -/
def EncodeFitsTableRow.Statement (i : Instr) : Prop :=
  i.wellFormed = true →
    ∃ w, wordOf (encode i) = some ((tableRow i).nbits, w) ∧ w / 2 ^ (tableRow i).lo = (tableRow i).value

/-- A command word fits its row when its operation code is the row's. -/
theorem enc_fits (op ch : Nibble) (vc : BitVec 2) (d : BitVec 16) :
    ∃ w, wordOf (.cmd (enc op ch vc d)) = some (32, w) ∧ w / 2 ^ 28 = op.toNat :=
  ⟨_, rfl, by rw [← opField_toNat, opField_enc]⟩

/-- A status byte fits its row when its type is the row's. -/
theorem status_fits (t s : Nibble) :
    ∃ w, wordOf (.midi (statusByteOf t s)) = some (8, w) ∧ w / 2 ^ 4 = t.toNat :=
  ⟨_, rfl, by rw [show 2 ^ 4 = 16 from rfl, ← typeField_toNat, typeField_statusByteOf]⟩

namespace EncodeFitsTableRow

theorem nop : Statement .nop := fun _ => enc_fits ..

theorem enable (ch : Nibble) : Statement (.enable ch) := fun _ => enc_fits ..

theorem disable (ch : Nibble) : Statement (.disable ch) := fun _ => enc_fits ..

theorem setWaveform (ch : Nibble) (code : BitVec 16) : Statement (.setWaveform ch code) := fun _ => enc_fits ..

theorem setVolume (ch : Nibble) (level : Data7) : Statement (.setVolume ch level) := fun _ => enc_fits ..

theorem voiceOn (ch : Nibble) (vc : BitVec 2) : Statement (.voiceOn ch vc) := fun _ => enc_fits ..

theorem voiceOff (ch : Nibble) (vc : BitVec 2) : Statement (.voiceOff ch vc) := fun _ => enc_fits ..

theorem voiceFrequency (ch : Nibble) (vc : BitVec 2) (freq : BitVec 16) : Statement (.voiceFrequency ch vc freq) := fun _ => enc_fits ..

theorem voiceModulation (ch : Nibble) (vc : BitVec 2) (depth : BitVec 16) : Statement (.voiceModulation ch vc depth) := fun _ => enc_fits ..

theorem voiceVelocity (ch : Nibble) (vc : BitVec 2) (vel : Data7) : Statement (.voiceVelocity ch vc vel) := fun _ => enc_fits ..

theorem voicePitchBend (ch : Nibble) (vc : BitVec 2) (bend : BitVec 14) : Statement (.voicePitchBend ch vc bend) := fun _ => enc_fits ..

theorem updateAll : Statement .updateAll := fun _ => enc_fits ..

theorem reservedCF (op : Nibble) : Statement (.reservedCF op) := by
  intro h
  refine ⟨_, rfl, ?_⟩
  have hop : 12 ≤ op.toNat := by simpa [Instr.wellFormed] using h
  show _ / 2 ^ 30 = 3
  rw [enc_toNat]
  have := op.isLt
  simp only [BitVec.ofNat_eq_ofNat, BitVec.toNat_ofNat]
  omega

theorem noteOff (sub : Nibble) : Statement (.noteOff sub) := fun _ => status_fits ..

theorem noteOn (sub : Nibble) : Statement (.noteOn sub) := fun _ => status_fits ..

theorem polyPressure (sub : Nibble) : Statement (.polyPressure sub) := fun _ => status_fits ..

theorem controlChange (sub : Nibble) : Statement (.controlChange sub) := fun _ => status_fits ..

theorem programChange (sub : Nibble) : Statement (.programChange sub) := fun _ => status_fits ..

theorem channelPressure (sub : Nibble) : Statement (.channelPressure sub) := fun _ => status_fits ..

theorem pitchBend (sub : Nibble) : Statement (.pitchBend sub) := fun _ => status_fits ..

theorem sysExclusive : Statement .sysExclusive := fun _ => ⟨_, rfl, by decide⟩

theorem sysMtcQuarterFrame : Statement .sysMtcQuarterFrame := fun _ => ⟨_, rfl, by decide⟩

theorem sysSongPosition : Statement .sysSongPosition := fun _ => ⟨_, rfl, by decide⟩

theorem sysSongSelect : Statement .sysSongSelect := fun _ => ⟨_, rfl, by decide⟩

theorem sysUndefinedF4 : Statement .sysUndefinedF4 := fun _ => ⟨_, rfl, by decide⟩

theorem sysUndefinedF5 : Statement .sysUndefinedF5 := fun _ => ⟨_, rfl, by decide⟩

theorem sysTuneRequest : Statement .sysTuneRequest := fun _ => ⟨_, rfl, by decide⟩

theorem sysEndExclusive : Statement .sysEndExclusive := fun _ => ⟨_, rfl, by decide⟩

theorem rtTimingClock : Statement .rtTimingClock := fun _ => ⟨_, rfl, by decide⟩

theorem rtUndefinedF9 : Statement .rtUndefinedF9 := fun _ => ⟨_, rfl, by decide⟩

theorem rtStart : Statement .rtStart := fun _ => ⟨_, rfl, by decide⟩

theorem rtContinue : Statement .rtContinue := fun _ => ⟨_, rfl, by decide⟩

theorem rtStop : Statement .rtStop := fun _ => ⟨_, rfl, by decide⟩

theorem rtUndefinedFD : Statement .rtUndefinedFD := fun _ => ⟨_, rfl, by decide⟩

theorem rtActiveSensing : Statement .rtActiveSensing := fun _ => ⟨_, rfl, by decide⟩

theorem rtSystemReset : Statement .rtSystemReset := fun _ => ⟨_, rfl, by decide⟩

theorem terminator : Statement .terminator := fun _ => ⟨_, rfl, by decide⟩

theorem strayData (d : Data7) : Statement (.strayData d) := by
  intro _
  exact ⟨_, rfl, by revert d; decide⟩

theorem dataByte (d : Data7) : Statement (.dataByte d) := by
  intro _
  exact ⟨_, rfl, by revert d; decide⟩

end EncodeFitsTableRow

end Sys2Proof.Laws
end

