-- ==== Sys2Proof/Machine/Assembler.lean ====
section
/-! DEFINITION. The assembler syntax of 30_encoding.md section 4: what a line stands for, as a list of
events. Operands are the numbers a line writes; a line with an operand that does not fit its field is
refused, not truncated (R99). -/

namespace Sys2Proof.Machine

/-- A line (R99 to R101). `wave` takes the number of its waveform (R18). -/
inductive AsmLine where
  | nop
  | enable (c : Nat)
  | disable (c : Nat)
  | wave (c n : Nat)
  | vol (c n : Nat)
  | von (c v : Nat)
  | voff (c v : Nat)
  | freq (c v n : Nat)
  | mod (c v n : Nat)
  | vel (c v n : Nat)
  | bend (c v n : Nat)
  | update
  | reset
  | tick
  | overflow
  | midi (bytes : List Nat)
  | ticks (n : Nat)
  | noteOn (c k vel : Nat)
  | noteOff (c k vel : Nat)
  | pitchbend (c n : Nat)
  | stage
  | endOfSequence
  deriving DecidableEq, Repr

/-- A command line, when its operands fit their fields: `c` up to 15, `v` up to 3, `n` up to 65535
(R99). -/
def asmCommand (op : Nibble) (c v n : Nat) : Option (List Event) :=
  if c ≤ 15 ∧ v ≤ 3 ∧ n ≤ 65535 then
    some [.cmd (enc op (BitVec.ofNat 4 c) (BitVec.ofNat 2 v) (BitVec.ofNat 16 n))]
  else none

/-- One `MIDI` event for each byte, in order, when every byte is one (R100). -/
def asmMidi (bytes : List Nat) : Option (List Event) :=
  if bytes.all (fun b => decide (b ≤ 255)) then
    some (bytes.map fun b => .midi (BitVec.ofNat 8 b))
  else none

/-- A three-byte channel message of type `t`, when `c` is at most 15 and both data are 7 bits
(R101). -/
def asmMessage (t c d1 d2 : Nat) : Option (List Event) :=
  if c ≤ 15 ∧ d1 ≤ 127 ∧ d2 ≤ 127 then asmMidi [16 * t + c, d1, d2] else none

/-- The events a line stands for (R99 to R101). -/
def assemble : AsmLine → Option (List Event)
  | .nop => asmCommand 0x0 0 0 0
  | .enable c => asmCommand 0x1 c 0 0
  | .disable c => asmCommand 0x2 c 0 0
  | .wave c n => asmCommand 0x3 c 0 n
  | .vol c n => asmCommand 0x4 c 0 n
  | .von c v => asmCommand 0x5 c v 0
  | .voff c v => asmCommand 0x6 c v 0
  | .freq c v n => asmCommand 0x7 c v n
  | .mod c v n => asmCommand 0x8 c v n
  | .vel c v n => asmCommand 0x9 c v n
  | .bend c v n => asmCommand 0xA c v n
  | .update => asmCommand 0xB 0 0 0
  | .reset => some [.reset]
  | .tick => some [.tick]
  | .overflow => some [.rxOverflow]
  | .midi bytes => asmMidi bytes
  | .ticks n => some (List.replicate n .tick)
  | .noteOn c k vel => asmMessage 0x9 c k vel
  | .noteOff c k vel => asmMessage 0x8 c k vel
  | .pitchbend c n => asmMessage 0xE c (n % 128) (n / 128)
  | .stage => some (List.replicate 16384 .tick)
  | .endOfSequence => some [.midi 0x00]

end Sys2Proof.Machine
end

