-- ==== Sys2Proof/Tests/Slice0.lean ====
section
/-! SUPPORT. The model's own tests: small steps whose results are taken from the spec's worked examples
and vectors (95_test_vectors.md), words written out from the encodings of 30_encoding.md, and a witness
for the hypotheses of every obligation that has some. -/

namespace Sys2Proof.Tests

open Sys2Proof.Machine

/-! ### Helpers -/

/-- The state an outcome goes on with. -/
def stateOf : Outcome → Option State
  | .next s => some s
  | _ => none

/-- The state after one instruction given to the block right after reset. -/
def afterReset (i : Instr) : Option State := stateOf (exec i State.reset)

/-- The registers of channel `c` in an outcome's state. -/
def regsOf (o : Option State) (c : Nat) : Option ChannelRegs := o.bind (·.regs? c)

/-- Voice `v` of channel `c` in an outcome's state. -/
def voiceOf (o : Option State) (c v : Nat) : Option Voice := o.bind (·.voice? c v)

/-- The block after reset with a message being assembled. -/
def inMessage (t sub : Nibble) (need : Fin 3) (d1 : Data7) : State :=
  { State.reset with
    framing := { mpState := .data, mpType := t, mpSub := sub, mpNeed := need, mpD1 := d1 } }

/-- The block after reset, offered some events. -/
def offered (es : List Event) : State := { State.reset with inputs := es }

/-- The block after reset, halted and offered some events. -/
def haltedWith (es : List Event) : State := { State.reset with halted := true, inputs := es }

/-- The block after reset with channel 0 enabled. -/
def enabledZero : State :=
  State.reset.modifyRegs 0 (ChannelRegs.setEnable true)

/-! ### Well-formedness -/

theorem test_wellFormed_reserved_op_five_refused : (Instr.reservedCF 5).wellFormed = false := by
  decide

theorem test_wellFormed_reserved_op_eleven_refused : (Instr.reservedCF 11).wellFormed = false := by
  decide

theorem test_wellFormed_reserved_op_twelve : (Instr.reservedCF 12).wellFormed = true := by decide

theorem test_wellFormed_stray_zero_refused : (Instr.strayData 0).wellFormed = false := by decide

theorem test_wellFormed_stray_one : (Instr.strayData 1).wellFormed = true := by decide

/-! ### Decoding: words written out from the spec's encodings

Command fields are op 31:28, ch 27:24, vc 23:22, ignored 21:16, data 15:0 (R80); MIDI bytes are type 7:4
and sub 3:0 (R89). -/

/-- Commands without a voice operand (R171 to R175, R182, R183; 95 section 2.5). -/
theorem test_decode_commands_on_channels :
    decodeTableWord 32 0b0000_0000_00_000000_0000000000000000 = some .nop ∧
    decodeTableWord 32 0b0001_0110_00_000000_0000000000000000 = some (.enable 6) ∧
    decodeTableWord 32 0b0010_0110_00_000000_0000000000000000 = some (.disable 6) ∧
    decodeTableWord 32 0b0011_0100_00_000000_0000000000000100 = some (.setWaveform 4 4) ∧
    decodeTableWord 32 0b0100_0010_00_000000_0000000001000000 = some (.setVolume 2 64) ∧
    decodeTableWord 32 0b1011_0000_00_000000_0000000000000000 = some .updateAll ∧
    decodeTableWord 32 0b1100_0101_00_000000_0000000000000000 = some (.reservedCF 12) ∧
    decodeTableWord 32 0xFFFFFFFF = some (.reservedCF 15) := by decide

/-- Commands with a voice operand (R176 to R181). -/
theorem test_decode_commands_on_voices :
    decodeTableWord 32 0b0101_0001_11_000000_0000000000000000 = some (.voiceOn 1 3) ∧
    decodeTableWord 32 0b0110_0100_01_000000_0000000000000000 = some (.voiceOff 4 1) ∧
    decodeTableWord 32 0b0111_0000_00_000000_0000000110111000 = some (.voiceFrequency 0 0 440) ∧
    decodeTableWord 32 0b1000_0010_11_000000_1000000000000000 = some (.voiceModulation 2 3 32768) ∧
    decodeTableWord 32 0b1001_0000_10_000000_0000000000111111 = some (.voiceVelocity 0 2 63) ∧
    decodeTableWord 32 0b1010_0010_11_000000_0011111111111111 = some (.voicePitchBend 2 3 16383) := by
  decide

/-- Ignored bits (R85, R86): K12, K21, K23 and the raw words of 95 section 2.5. -/
theorem test_decode_ignores_unused_bits :
    decodeTableWord 32 0x420000C8 = some (.setVolume 2 72) ∧
    decodeTableWord 32 0x900000FF = some (.voiceVelocity 0 0 127) ∧
    decodeTableWord 32 0xA000FFFF = some (.voicePitchBend 0 0 16383) ∧
    decodeTableWord 32 0x10FF0000 = some (.enable 0) ∧
    decodeTableWord 32 0x7ABF1234 = some (.voiceFrequency 10 2 0x1234) := by decide

/-- Channel messages (R90). -/
theorem test_decode_channel_messages :
    decodeTableWord 8 0b1000_0000 = some (.noteOff 0) ∧
    decodeTableWord 8 0b1001_0011 = some (.noteOn 3) ∧
    decodeTableWord 8 0b1010_0001 = some (.polyPressure 1) ∧
    decodeTableWord 8 0b1011_1111 = some (.controlChange 15) ∧
    decodeTableWord 8 0b1100_0010 = some (.programChange 2) ∧
    decodeTableWord 8 0b1101_0110 = some (.channelPressure 6) ∧
    decodeTableWord 8 0b1110_0111 = some (.pitchBend 7) := by decide

/-- System messages (R91). -/
theorem test_decode_system_messages :
    decodeTableWord 8 0xF0 = some .sysExclusive ∧
    decodeTableWord 8 0xF1 = some .sysMtcQuarterFrame ∧
    decodeTableWord 8 0xF2 = some .sysSongPosition ∧
    decodeTableWord 8 0xF3 = some .sysSongSelect ∧
    decodeTableWord 8 0xF4 = some .sysUndefinedF4 ∧
    decodeTableWord 8 0xF5 = some .sysUndefinedF5 ∧
    decodeTableWord 8 0xF6 = some .sysTuneRequest ∧
    decodeTableWord 8 0xF7 = some .sysEndExclusive ∧
    decodeTableWord 8 0xF8 = some .rtTimingClock ∧
    decodeTableWord 8 0xF9 = some .rtUndefinedF9 ∧
    decodeTableWord 8 0xFA = some .rtStart ∧
    decodeTableWord 8 0xFB = some .rtContinue ∧
    decodeTableWord 8 0xFC = some .rtStop ∧
    decodeTableWord 8 0xFD = some .rtUndefinedFD ∧
    decodeTableWord 8 0xFE = some .rtActiveSensing ∧
    decodeTableWord 8 0xFF = some .rtSystemReset := by decide

/-- The other bytes, by framing state (R88, R92, R95, R96). -/
theorem test_decode_other_bytes :
    decodeTableWord 8 0x00 = some .terminator ∧
    decodeTableWord 8 0x01 = some (.strayData 1) ∧
    decodeTableWord 8 0x7F = some (.strayData 127) ∧
    decodeMidi .data 0x24 = .dataByte 0x24 ∧
    decodeMidi .data 0x00 = .dataByte 0 ∧
    decodeMidi .data 0x90 = .dataByte 0x10 ∧
    decodeMidi .data 0xF8 = .dataByte 0x78 := by decide

/-- No port takes words of another width; single-wire events carry no instruction. -/
theorem test_decode_refusals :
    decodeTableWord 16 0x9000 = none ∧ decodeTableWord 0 0 = none ∧
    (decode .idle .tick).toOption = none ∧ (decode .idle .reset).toOption = none ∧
    (decode .idle .rxOverflow).toOption = none := by decide

/-- The assembler's words (R99), from 95 section 2.5. -/
theorem test_encode_commands :
    encode (.disable 6) = .cmd 0x26000000 ∧ encode (.voiceOn 1 3) = .cmd 0x51C00000 ∧
    encode (.voicePitchBend 2 3 0) = .cmd 0xA2C00000 ∧ encode (.noteOn 1) = .midi 0x91 ∧
    encode .rtStop = .midi 0xFC := by decide

/-- Lines and their words, from 95 sections 2.5 and 2.6 (K8, K13, K21, M29, M30), and lines an assembler
refuses. -/
theorem test_assemble :
    assemble (.wave 4 4) = some [.cmd 0x34000004] ∧ assemble (.von 1 3) = some [.cmd 0x51C00000] ∧
    assemble (.vel 0 0 255) = some [.cmd 0x900000FF] ∧ assemble .update = some [.cmd 0xB0000000] ∧
    assemble (.noteOn 1 60 100) = some [.midi 0x91, .midi 0x3C, .midi 0x64] ∧
    assemble (.pitchbend 3 12345) = some [.midi 0xE3, .midi 0x39, .midi 0x60] ∧
    assemble (.von 1 4) = none ∧ assemble (.enable 16) = none ∧ assemble (.pitchbend 0 16384) = none := by
  decide

/-- The codes of R18: a waveform's code names that waveform. -/
theorem test_wave_codes :
    ([.sine, .triangle, .ramp, .square, .noise] : List Wave).map
      (fun w => waveOfCode ((waveCode w).setWidth 16)) =
      [some .sine, some .triangle, some .ramp, some .square, some .noise] := by decide

/-! ### Control commands: vectors K1 to K26, E5 and E6 -/

theorem test_nop_changes_nothing : afterReset .nop = some State.reset := by decide

theorem test_enable_zero :
    (regsOf (afterReset (.enable 0)) 0).map (fun r => (r.enable, r.outEn)) = some (true, true) := by
  decide

theorem test_enable_leaves_other_channels :
    (regsOf (afterReset (.enable 0)) 1).map (·.enable) = some false := by decide

theorem test_disable_keeps_output :
    (regsOf (stateOf (exec (.disable 6)
      (State.reset.modifyRegs 6 fun r => { r with enable := true, outEn := true, outVal := 3 }))) 6).map
      (fun r => (r.enable, r.outEn, r.outVal)) = some (false, false, 3) := by decide

theorem test_disable_invalid_channel : afterReset (.disable 7) = some State.reset := by decide

theorem test_setWaveform_codes :
    (regsOf (afterReset (.setWaveform 0 2)) 0).map (·.waveform) = some .ramp ∧
    (regsOf (afterReset (.setWaveform 4 4)) 4).map (·.waveform) = some .noise ∧
    (regsOf (afterReset (.setWaveform 5 3)) 5).map (·.waveform) = some .square := by decide

theorem test_setWaveform_refused :
    afterReset (.setWaveform 0 4) = some State.reset ∧
    afterReset (.setWaveform 1 5) = some State.reset ∧
    afterReset (.setWaveform 4 65535) = some State.reset := by decide

theorem test_setVolume : (regsOf (afterReset (.setVolume 2 64)) 2).map (·.volume) = some 64 := by
  decide

theorem test_setVolume_invalid_channel : afterReset (.setVolume 9 10) = some State.reset := by decide

theorem test_voiceOn_restarts :
    (voiceOf (stateOf (exec (.voiceOn 1 3) (State.reset.modifyVoice 1 3 fun V =>
      { V with count := 2500, envCount := 5, modCount := 9, adsrState := .sustain, env := 512 }))) 1 3).map
      (fun V => (V.count, V.gate, V.envCount, V.modCount, V.adsrState, V.env)) =
      some (0, true, 0, 0, .attack, 512) := by decide

theorem test_voiceOn_invalid_voice : afterReset (.voiceOn 4 1) = some State.reset := by decide

theorem test_voiceOff :
    (voiceOf (stateOf (exec (.voiceOff 4 0) (State.reset.modifyVoice 4 0 Voice.start))) 4 0) =
      some Voice.reset := by decide

theorem test_voiceOff_invalid_voice : afterReset (.voiceOff 4 1) = some State.reset := by decide

theorem test_voiceFrequency :
    (voiceOf (afterReset (.voiceFrequency 0 0 65535)) 0 0).map (·.frequency) = some 65535 := by decide

theorem test_voiceFrequency_invalid_channel :
    afterReset (.voiceFrequency 15 3 1) = some State.reset := by decide

theorem test_voiceModulation :
    (voiceOf (afterReset (.voiceModulation 0 0 65535)) 0 0).map (·.mod) = some 65535 := by decide

theorem test_voiceVelocity_on_one_voice :
    (voiceOf (afterReset (.voiceVelocity 0 2 127)) 0 2).map (·.velocity) = some 127 ∧
    (voiceOf (afterReset (.voiceVelocity 0 2 127)) 0 1).map (·.velocity) = some 0 := by decide

theorem test_voicePitchBend :
    (voiceOf (afterReset (.voicePitchBend 0 0 16383)) 0 0).map (·.pitchBend) = some 16383 := by decide

/-- T28: every channel is disabled. -/
theorem test_updateAll_all_disabled : afterReset .updateAll = some State.reset := by decide

/-- K24, without the table: the counter of the one voice of channel 5 advances. -/
theorem test_updateAll_enabled :
    (voiceOf (stateOf (exec .updateAll (State.reset.modifyRegs 5 (ChannelRegs.setEnable true)))) 5 0).map
      (·.envCount) = some 1 := by decide

theorem test_reserved_changes_nothing : afterReset (.reservedCF 13) = some State.reset := by decide

/-! ### The tick: worked examples of R126 to R144 and vectors P, W -/

/-- The values of R126. -/
theorem test_attack_targets :
    attackTarget 0 = 8 ∧ attackTarget 1 = 15 ∧ attackTarget 64 = 515 ∧ attackTarget 100 = 800 ∧
    attackTarget 127 = 1015 := by decide

/-- R127: with `ATTACK_CURVE[256]` = 256. -/
theorem test_attack_envelope (h : Config.tableContents .attackCurve 256 = 256) :
    attackEnv 127 4096 = 261 := by
  have e : tableIndex 4096 = 256 := by decide
  rw [attackEnv, e, tableRead, h]
  decide

/-- R128: with `DECAY_CURVE[512]` = 511 and `DECAY_CURVE[0]` = 1023; the second product is negative
and rounds down (T16). -/
theorem test_decay_envelope (h : Config.tableContents .decayCurve 512 = 511)
    (h0 : Config.tableContents .decayCurve 0 = 1023) :
    decayEnv 1015 512 8192 = 763 ∧ decayEnv 8 512 1 = 8 ∧ decayEnv 15 512 1 = 15 := by
  have e : tableIndex 8192 = 512 := by decide
  have e0 : tableIndex 1 = 0 := by decide
  simp only [decayEnv, e, e0, tableRead, h, h0]
  decide

/-- R130: with `DECAY_CURVE[0]` = 1023. -/
theorem test_release_envelope (h0 : Config.tableContents .decayCurve 0 = 1023) :
    decayEnv 512 0 1 = 511 := by
  have e0 : tableIndex 1 = 0 := by decide
  simp only [decayEnv, e0, tableRead, h0]
  decide

/-- R125: a tick at counter 16383 ends ATTACK; one at 16382 does not. -/
theorem test_attack_ends_at_16384 :
    (fun V : Voice => (V.adsrState, V.envCount, V.envStart)) (Voice.advance
      { Voice.reset with envCount := 16383, velocity := 127 }) = (.decay, 0, 1015) ∧
    (fun V : Voice => (V.adsrState, V.envCount)) (Voice.advance
      { Voice.reset with envCount := 16382 }) = (.attack, 16383) := by decide

/-- R129: the example; `env` is kept. -/
theorem test_sustain_to_release :
    (fun V : Voice => (V.adsrState, V.envCount, V.env)) (Voice.advance
      { Voice.reset with adsrState := .sustain, env := 520 }) = (.release, 0, 520) := by decide

/-- P6 to P9: pitch bend, rounding down on both sides of the centre. -/
theorem test_pitch_bend_deltas :
    (Voice.advance { Voice.reset with frequency := 440, pitchBend := 16383 }).count = 549 ∧
    (Voice.advance { Voice.reset with frequency := 440, pitchBend := 0 }).count = 330 ∧
    (Voice.advance { Voice.reset with frequency := 440, pitchBend := 8191 }).count = 439 ∧
    (Voice.advance { Voice.reset with frequency := 440, pitchBend := 8193 }).count = 440 := by decide

/-- R137 and P4, P12: the phase wraps modulo 16384. -/
theorem test_phase_wraps :
    (Voice.advance { Voice.reset with count := 16000, frequency := 1000 }).count = 616 ∧
    (Voice.advance { Voice.reset with frequency := 65535 }).count = 16383 ∧
    (Voice.advance { Voice.reset with frequency := 65535, pitchBend := 16383 }).count = 16380 := by
  decide

/-- P13: the curve is read at the LFO phase just advanced; with `MOD_CURVE[1]` = 515. -/
theorem test_modulation (h : Config.tableContents .modCurve 1 = 515) :
    (Voice.advance { Voice.reset with frequency := 440, mod := 65535 }).count = 661 := by
  show BitVec.ofInt 14 (0 + (440 + 0 +
    asr (440 * tableRead .modCurve 1 * 65535) 26)) = 661
  rw [tableRead, h]
  decide

/-- R139: the threshold of the square wave. -/
theorem test_square_threshold :
    waveSample .square 8190 = 0 ∧ waveSample .square 8191 = 1023 := by decide

/-- R138: `RAMP[38]` = 38 at phase 616. -/
theorem test_ramp_sample (h : Config.tableContents .ramp 38 = 38) : waveSample .ramp 616 = 38 := by
  have e : tableIndex (616 : Phase).toNat = 38 := by decide
  rw [waveSample, e, tableRead, h]
  decide

/-- R141: the two examples, and silence by the state at the start of the step (R140). -/
theorem test_voice_output :
    voiceOutput .square { Voice.reset with gate := true } { Voice.reset with count := 8191, env := 1022 }
      = 1021 ∧
    voiceOutput .square { Voice.reset with adsrState := .decay }
      { Voice.reset with count := 8191, env := 1022 } = 0 ∧
    voiceOutput .square Voice.reset { Voice.reset with count := 8191, adsrState := .decay, env := 1022 }
      = 1021 := by decide

/-- W2 by one tick: the square wave at phase 8190 drives 0, and only channel 4 steps. -/
theorem test_tick_drives_square_low :
    (stateOf (takeEvent .tick ((State.reset.modifyRegs 4 fun r =>
        { r with enable := true, waveform := .square, outVal := 9 }).modifyVoice 4 0 fun V =>
        { V with adsrState := .sustain, gate := true, frequency := 8190, env := 1022 }))).bind
      (fun s => (s.regs? 4).map (·.outVal)) = some 0 := by decide

/-- W3 by one tick: the largest output. -/
theorem test_tick_drives_largest_output :
    (stateOf (takeEvent .tick ((State.reset.modifyRegs 4 fun r =>
        { r with enable := true, waveform := .square }).modifyVoice 4 0 fun V =>
        { V with adsrState := .sustain, gate := true, frequency := 8191, env := 1022 }))).bind
      (fun s => (s.regs? 4).map (·.outVal)) = some 1013 := by decide

/-! ### MIDI: vectors M1 to M30 -/

theorem test_noteOff_status :
    (afterReset (.noteOff 0)).map (·.framing) = some (inMessage 0x8 0 2 0).framing := by decide

theorem test_noteOn_status :
    (afterReset (.noteOn 12)).map (·.framing) = some (inMessage 0x9 12 2 0).framing := by decide

theorem test_polyPressure_status :
    (afterReset (.polyPressure 0)).map (·.framing) = some (inMessage 0xA 0 2 0).framing := by decide

theorem test_controlChange_status :
    (afterReset (.controlChange 0)).map (·.framing) = some (inMessage 0xB 0 2 0).framing := by decide

theorem test_programChange_status :
    (afterReset (.programChange 0)).map (·.framing) = some (inMessage 0xC 0 1 0).framing := by decide

theorem test_channelPressure_status :
    (afterReset (.channelPressure 0)).map (·.framing) = some (inMessage 0xD 0 1 0).framing := by decide

theorem test_pitchBend_status :
    (afterReset (.pitchBend 1)).map (·.framing) = some (inMessage 0xE 1 2 0).framing := by decide

theorem test_system_status_with_data :
    (afterReset .sysMtcQuarterFrame).map (·.framing) = some (inMessage 0xF 1 1 0).framing ∧
    (afterReset .sysSongPosition).map (·.framing) = some (inMessage 0xF 2 2 0).framing ∧
    (afterReset .sysSongSelect).map (·.framing) = some (inMessage 0xF 3 1 0).framing := by decide

theorem test_system_status_without_data :
    ([.sysExclusive, .sysUndefinedF4, .sysUndefinedF5, .sysTuneRequest, .sysEndExclusive,
      .rtTimingClock, .rtUndefinedF9, .rtStart, .rtContinue, .rtStop, .rtUndefinedFD,
      .rtActiveSensing, .rtSystemReset] : List Instr).map afterReset =
      List.replicate 13 (some State.reset) := by decide

theorem test_terminator_changes_nothing : afterReset .terminator = some State.reset := by decide

theorem test_stray_changes_nothing : afterReset (.strayData 0x24) = some State.reset := by decide

/-- M2. -/
theorem test_first_data_byte :
    (stateOf (exec (.dataByte 0x24) (inMessage 0x9 0 2 0))).map (·.framing) =
      some (inMessage 0x9 0 1 36).framing := by decide

/-- M5: nibble 12 names channel 0, and the frequency is that of the key. -/
theorem test_note_on_dispatch :
    (voiceOf (stateOf (exec (.dataByte 0x40) (inMessage 0x9 12 1 0x45))) 0 0) =
      some { Voice.reset with gate := true, frequency := Config.noteFreq 69, velocity := 64 } := rfl

/-- M8, and the framing after it. -/
theorem test_note_off_dispatch :
    (voiceOf (stateOf (exec (.dataByte 0x40) (inMessage 0x8 0 1 0x45))) 0 0) =
      some { Voice.reset with frequency := Config.noteFreq 69, velocity := 64 } ∧
    (stateOf (exec (.dataByte 0x40) (inMessage 0x8 0 1 0x45))).map (·.framing.mpState) =
      some .idle := ⟨rfl, by decide⟩

/-- M30 and M15: low 7 bits first. -/
theorem test_pitch_bend_dispatch :
    (voiceOf (stateOf (exec (.dataByte 0x60) (inMessage 0xE 3 1 0x39))) 3 0).map (·.pitchBend) =
      some 12345 ∧
    (voiceOf (stateOf (exec (.dataByte 0x40) (inMessage 0xE 2 1 0))) 2 0).map (·.pitchBend) =
      some 8192 := by decide

/-- M10 and M11: not dispatched. -/
theorem test_undispatched_messages :
    stateOf (exec (.dataByte 0x7F) (inMessage 0xB 0 1 1)) =
      some { State.reset with framing := { Framing.reset with mpType := 0xB, mpD1 := 1 } } ∧
    stateOf (exec (.dataByte 3) (inMessage 0xC 0 1 0)) =
      some { State.reset with framing := { Framing.reset with mpType := 0xC } } := by decide

/-- M28: the status byte 0x90 in a data position is the data value 0x10. -/
theorem test_status_byte_as_data :
    (voiceOf (stateOf (takeEvent (.midi 0x90) (inMessage 0xE 0 1 0))) 0 0).map (·.pitchBend) =
      some 2048 := by decide

/-! ### Halt, reset and delivery: vectors E1 to E4 -/

theorem test_overflow_halts :
    (stateOf (takeEvent .rxOverflow State.reset)).map (·.halted) = some true := by decide

theorem test_halted_block_is_stuck :
    stateOf (step (haltedWith [.tick, .cmd 0x10000000])) = none ∧
    stateOf (exec (.enable 0) (haltedWith [])) = none := by decide

theorem test_reset_leaves_the_halt :
    stateOf (step (haltedWith [.tick, .reset, .tick])) = some (offered [.tick]) := by decide

theorem test_step_runs_a_delivered_word :
    (regsOf (stateOf (step (State.reset.withFetchWord 32 0x10FF0000))) 0).map (·.enable) =
      some true ∧
    (stateOf (step (State.reset.withFetchWord 8 0xF2))).map (·.framing.mpNeed) = some 2 := by decide

/-! ### Witnesses: every obligation's hypotheses hold somewhere, at boundary values of its clauses -/

theorem witness_VoicesExistExactlyBelowNV :
    (State.reset.voice? 3 3).isSome = true ∧ (State.reset.voice? 3 4).isSome = false ∧
    (State.reset.voice? 4 0).isSome = true ∧ (State.reset.voice? 4 1).isSome = false ∧
    (State.reset.voice? 6 0).isSome = true ∧ (State.reset.voice? 7 0).isSome = false := by decide

theorem witness_ResetVoiceValues :
    State.reset.voice? 0 3 = some Voice.reset ∧ State.reset.voice? 6 0 = some Voice.reset := by decide

theorem witness_StepRunsDecodedInstruction :
    (offered [.midi 0x90]).halted = false ∧ (offered [.midi 0x90]).inputs = [.midi 0x90] ∧
    decode (offered [.midi 0x90]).framing.mpState (.midi 0x90) = .ok (.noteOn 0) :=
  ⟨rfl, rfl, rfl⟩

theorem witness_DeliveredWordRunsNext :
    State.reset.halted = false ∧ State.reset.framing.mpState = .idle ∧
    decodeTableWord 32 0x26000000 = some (.disable 6) ∧ decodeTableWord 8 0x93 = some (.noteOn 3) := by
  decide

theorem witness_ResetStepsInEveryState :
    (haltedWith [.reset, .tick]).inputs = [.reset, .tick] := rfl

theorem witness_OverflowSetsHaltedOnly :
    (offered [.rxOverflow]).halted = false ∧ (offered [.rxOverflow]).inputs = [.rxOverflow] :=
  ⟨rfl, rfl⟩

theorem witness_HaltedBlockHasNoStepButReset :
    (haltedWith [.tick]).halted = true ∧ Event.tick ≠ .reset ∧ .reset ∉ (haltedWith [.tick]).inputs := by
  decide

theorem witness_HaltedBlockResumesAtNextReset :
    (haltedWith [.tick, .reset]).halted = true ∧ .reset ∉ ([.tick] : List Event) ∧
    (haltedWith [.tick, .reset]).inputs = [.tick] ++ .reset :: [] := by decide

theorem witness_BlockHoldsItsStateBetweenEvents :
    State.reset.halted = false ∧ State.reset.inputs = [] := by decide

theorem witness_DecodeOfEncodeIsIdentity :
    (Instr.reservedCF 15).wellFormed = true ∧ (Instr.strayData 127).wellFormed = true ∧
    (Instr.dataByte 0).wellFormed = true := by decide

theorem witness_CommandDecodingReadsExactlyTheUsedBits :
    ([0xF0000000#32, 0xFF000000#32][(0x1FFFFFFF#32).toNat / 2 ^ 28]?) = some 0xFF000000#32 ∧
    0x1F000000#32 &&& 0xFF000000#32 = 0x1FFFFFFF#32 &&& 0xFF000000#32 := by decide

/-- A word of each of the six clauses, with every bit of its fields set. -/
theorem witness_DataOperandsAreTheStatedLowBits :
    [0x3FFFFFFF#32, 0x4FFFFFFF#32, 0x7FFFFFFF#32, 0x8FFFFFFF#32, 0x9FFFFFFF#32, 0xAFFFFFFF#32].map
      (fun w => w.toNat / 2 ^ 28) = [3, 4, 7, 8, 9, 10] := by decide

/-- For NopAndReservedChangeNothing. -/
theorem witness_NopAndReservedChangeNothing : State.reset.halted = false := rfl

theorem witness_EnableSetsEnableAndOutEn :
    (6 : Nibble).toNat < 7 ∧ 7 ≤ (7 : Nibble).toNat ∧ State.reset.halted = false := by decide

theorem witness_DisableClearsEnableAndOutEn :
    (0 : Nibble).toNat < 7 ∧ 7 ≤ (15 : Nibble).toNat ∧ State.reset.halted = false := by decide

/-- Noise on the last melodic channel is refused; on the first auxiliary channel it is code 4. -/
theorem witness_SetWaveformStoresLegalCodesOnly :
    ((4 : BitVec 16).toNat = 4 ∧ (3 : Nibble).toNat < 4) ∧ 4 < (5 : BitVec 16).toNat ∧
    ((4 : Nibble).toNat < 7 ∧ waveCodes[(4 : BitVec 16).toNat]? = some .noise ∧
      4 ≤ (4 : Nibble).toNat) ∧
    ((3 : Nibble).toNat < 7 ∧ waveCodes[(3 : BitVec 16).toNat]? = some .square) := by decide

theorem witness_SetVolumeChangesOnlyVolume :
    (6 : Nibble).toNat < 7 ∧ 7 ≤ (7 : Nibble).toNat ∧ State.reset.halted = false := by decide

/-- For VoiceOnRestartsTheAttack and VoiceOffClearsOnlyGate, and the two cases of
VoiceSettersWriteOneField: the last voice of a melodic and of an auxiliary channel, and the first that
does not exist. -/
theorem witness_voice_commands :
    State.reset.halted = false ∧
    ((3 : Nibble).toNat < 7 ∧ (3 : BitVec 2).toNat < (if (3 : Nibble).toNat < 4 then 4 else 1)) ∧
    ((4 : Nibble).toNat < 7 ∧ (0 : BitVec 2).toNat < (if (4 : Nibble).toNat < 4 then 4 else 1)) ∧
    ¬((4 : Nibble).toNat < 7 ∧ (1 : BitVec 2).toNat < (if (4 : Nibble).toNat < 4 then 4 else 1)) := by
  decide

/-- The word 0x7600FFFF is a `VOICE_FREQUENCY` for voice 0 of channel 6. -/
theorem witness_VoiceSettersWriteOneField :
    State.reset.halted = false ∧
    (Instr.voiceFrequency 6 0 65535 = .voiceFrequency 6 0 65535 ∧
      (fun V : Voice => { V with frequency := 65535 }) =
        (fun V : Voice => { V with frequency := (65535 : BitVec 16) }) ∧ 7 = 7 ∧
      (fun w : CommandWord => w.toNat % 2 ^ 16 = (65535 : BitVec 16).toNat) =
        fun w : CommandWord => w.toNat % 2 ^ 16 = (65535 : BitVec 16).toNat) ∧
    (0x7600FFFF#32).toNat / 2 ^ 28 = 7 ∧
    (0x7600FFFF#32).toNat / 2 ^ 24 % 16 = (6 : Nibble).toNat ∧
    (0x7600FFFF#32).toNat / 2 ^ 22 % 4 = (0 : BitVec 2).toNat ∧
    (0x7600FFFF#32).toNat % 2 ^ 16 = (65535 : BitVec 16).toNat :=
  ⟨rfl, ⟨rfl, rfl, rfl, rfl⟩, by decide, by decide, by decide, by decide⟩

/-- One word for each of the four reasons, at the boundary. -/
theorem witness_InvalidSelectorsAreSilentlyIgnored :
    (offered [.cmd 0xC0000000]).halted = false ∧
    (offered [.cmd 0xC0000000]).inputs = [.cmd 0xC0000000] ∧ 12 ≤ (0xC0000000#32).toNat / 2 ^ 28 ∧
    (1 ≤ (0x17000000#32).toNat / 2 ^ 28 ∧ 7 ≤ (0x17000000#32).toNat / 2 ^ 24 % 16) ∧
    (5 ≤ (0x54400000#32).toNat / 2 ^ 28 ∧ (0x54400000#32).toNat / 2 ^ 24 % 16 = 4 ∧
      1 ≤ (0x54400000#32).toNat / 2 ^ 22 % 4) ∧
    ((0x33000004#32).toNat / 2 ^ 28 = 3 ∧ (0x33000004#32).toNat / 2 ^ 24 % 16 = 3 ∧
      (0x33000004#32).toNat % 2 ^ 16 = 4) := by decide

theorem witness_TickStepsExactlyTheEnabledChannels :
    enabledZero.halted = false ∧ (enabledZero.regs? 0).map (·.enable) = some true ∧
    (enabledZero.regs? 6).map (·.enable) = some false := by decide

theorem witness_UpdateAllIsOneTick :
    (0xB0000000#32).toNat / 2 ^ 28 = 11 ∧ (0xBFFFFFFF#32).toNat / 2 ^ 28 = 11 := by decide

/-- For AttackStageOfAVoice, DecayStageOfAVoice, SustainStageOfAVoice and ReleaseStageOfAVoice: a voice
in each stage, and the two sides of the counter's end. -/
theorem witness_envelope_stages :
    ({ Voice.reset with envCount := 16382 } : Voice).adsrState = .attack ∧
    ¬ 16383 < (16382 : BitVec 15).toNat + 1 ∧ 16383 < (16383 : BitVec 15).toNat + 1 ∧
    ({ Voice.reset with adsrState := .decay } : Voice).adsrState = .decay ∧
    ({ Voice.reset with adsrState := .sustain } : Voice).adsrState = .sustain ∧
    ({ Voice.reset with adsrState := .release } : Voice).adsrState = .release := by decide

theorem witness_TableIndexIsTheShiftedCounter : 16383 ≤ 16383 ∧ (tableIndex 16383).toNat = 1023 := by
  decide

theorem witness_VoiceOutputIsSilentOrScaledSample :
    (({ Voice.reset with adsrState := .release } : Voice).gate = false ∧
      ({ Voice.reset with adsrState := .release } : Voice).adsrState ≠ .attack) ∧
    Voice.reset.adsrState = .attack := by decide

theorem witness_PhaseWrapsModuloMaskPlusOne : Voice.reset.pitchBend = 8192 ∧ Voice.reset.mod = 0 := by
  decide

theorem witness_ReleasedVoiceCyclesIn49153Ticks :
    Voice.reset.adsrState = .attack ∧ Voice.reset.envCount = 0 ∧ Voice.reset.gate = false := by decide

/-- Channel 0 enabled and 16384 ticks offered. -/
theorem witness_RunOfOneStageReachesDecay :
    enabledZero.halted = false ∧ (enabledZero.regs? 0).map (·.enable) = some true ∧
    enabledZero.voice? 0 3 = some Voice.reset ∧ Voice.reset.adsrState = .attack ∧
    Voice.reset.envCount = 0 ∧
    ({ enabledZero with inputs := List.replicate 16384 .tick ++ [] } : State).inputs =
      List.replicate 16384 .tick ++ [] :=
  ⟨by decide, by decide, by decide, rfl, rfl, rfl⟩

/-- For StatusByteOpensMessageOfStatedLength and StrayBytesAndTerminatorChangeNothing. -/
theorem witness_idle_block : State.reset.halted = false ∧ State.reset.framing.mpState = .idle := by
  decide

/-- The first and the last of these bytes. -/
theorem witness_SystemBytesWithoutDataChangeNothing :
    (offered [.midi 0xF4]).halted = false ∧ (offered [.midi 0xF4]).framing.mpState = .idle ∧
    0xF4 ≤ (0xF4 : MidiByte).toNat ∧ 0xF4 ≤ (0xFF : MidiByte).toNat ∧
    (offered [.midi 0xF4]).inputs = [.midi 0xF4] := by decide

theorem witness_FirstDataByteIsHeld :
    (inMessage 0x9 0 2 0).halted = false ∧ (inMessage 0x9 0 2 0).framing.mpState = .data ∧
    (inMessage 0x9 0 2 0).framing.mpNeed = 2 := by decide

/-- The last nibble that names a channel, and the first that falls back to channel 0. -/
theorem witness_NoteOffDispatch :
    (inMessage 0x8 6 1 0).halted = false ∧ (inMessage 0x8 6 1 0).framing.mpState = .data ∧
    (inMessage 0x8 6 1 0).framing.mpNeed = 1 ∧ (inMessage 0x8 6 1 0).framing.mpType = 0x8 ∧
    6 = (if (6 : Nibble).toNat < 7 then (6 : Nibble).toNat else 0) ∧
    0 = (if (7 : Nibble).toNat < 7 then (7 : Nibble).toNat else 0) := by decide

theorem witness_NoteOnDispatch :
    (inMessage 0x9 7 1 0).halted = false ∧ (inMessage 0x9 7 1 0).framing.mpState = .data ∧
    (inMessage 0x9 7 1 0).framing.mpNeed = 1 ∧ (inMessage 0x9 7 1 0).framing.mpType = 0x9 := by decide

theorem witness_PitchBendDispatch :
    (inMessage 0xE 0 1 0).halted = false ∧ (inMessage 0xE 0 1 0).framing.mpState = .data ∧
    (inMessage 0xE 0 1 0).framing.mpNeed = 1 ∧ (inMessage 0xE 0 1 0).framing.mpType = 0xE := by decide

theorem witness_OtherMessagesAreNotDispatched :
    (inMessage 0xF 2 1 0).halted = false ∧ (inMessage 0xF 2 1 0).framing.mpState = .data ∧
    (inMessage 0xF 2 1 0).framing.mpNeed = 1 ∧
    (inMessage 0xF 2 1 0).framing.mpType ∉ ([0x8, 0x9, 0xE] : List Nibble) := by decide

theorem witness_EveryByteInDataPositionIsData :
    (inMessage 0x9 0 2 0).framing.mpState = .data ∧ encode .rtTimingClock = .midi 0xF8 := by decide

theorem witness_NoteOnMessageStartsVoiceZero :
    (offered [.midi (BitVec.ofNat 8 (0x90 + 6)), .midi 0x24, .midi 0xFF]).halted = false ∧
    (offered [.midi (BitVec.ofNat 8 (0x90 + 6)), .midi 0x24, .midi 0xFF]).framing.mpState = .idle ∧
    6 < 7 ∧
    (offered [.midi (BitVec.ofNat 8 (0x90 + 6)), .midi 0x24, .midi 0xFF]).inputs =
      [.midi (BitVec.ofNat 8 (0x90 + 6)), .midi 0x24, .midi 0xFF] := by decide

/-- A voice within the invariant at the ends of its ranges. -/
theorem witness_voice_invariant :
    Voice.Inv { Voice.reset with envCount := 16383, env := 1022, envStart := 1015 } := by
  constructor <;> decide

/-- The block with voice 0 of channel 0 in RELEASE, offered a tick. -/
def releasing : State :=
  { enabledZero.modifyVoice 0 0 fun V => { V with adsrState := .release, envStart := 512 } with
    inputs := [.tick] }

/-- A state that meets the invariant and is not the reset state. -/
theorem releasing_inv : releasing.Inv where
  regs c r h := by
    have hc : c < 7 := (regs?_isSome releasing c).1 (by rw [h]; rfl)
    have key : ∀ c : Fin 7, ∀ r ∈ releasing.regs? c,
        r.outEn = r.enable ∧ r.waveform ≠ .noise ∧ r.outVal.toNat ≤ 1013 := by decide
    obtain ⟨h1, h2, h3⟩ := key ⟨c, hc⟩ r h
    exact ⟨h1, fun _ => h2, h3⟩
  voices c v V h := by
    have hc := (voice?_isSome releasing c v).1 (by rw [h]; rfl)
    have hv : v < 4 := by have := hc.2; rw [nv_eq] at this; split at this <;> omega
    have key : ∀ (c : Fin 7) (v : Fin 4), ∀ V ∈ releasing.voice? c v,
        V = Voice.reset ∨ V = { Voice.reset with adsrState := .release, envStart := 512 } := by
      decide
    obtain rfl | rfl := key ⟨c, hc.1⟩ ⟨v, hv⟩ V h <;> constructor <;> decide
  framing := by constructor <;> decide

/-- The invariant holds somewhere a step can be taken. -/
theorem witness_EveryStepKeepsTheInvariant :
    releasing.Inv ∧ (stateOf (step releasing)).isSome = true := ⟨releasing_inv, by decide⟩

theorem witness_ReleasedVoiceIsSilent :
    releasing.Inv ∧ (releasing.voice? 0 0).map (·.adsrState) = some .release :=
  ⟨releasing_inv, by decide⟩

theorem witness_OutputNeverTruncates :
    1 ≤ Config.melodicVoices ∧
    ∀ (v : Nat) (V : Voice), (Channel.reset Config.melodicVoices).voices[v]? = some V → V.Inv := by
  refine ⟨by decide, fun v V h => ?_⟩
  obtain ⟨_, rfl⟩ := Vector.getElem?_eq_some_iff.1 h
  simp only [Channel.reset, Vector.getElem_replicate]
  constructor <;> decide

/-- The framing invariant between the two bytes of a message. -/
theorem witness_framing_invariant : Framing.Inv (inMessage 0x9 0 1 36).framing := by
  constructor <;> decide

/-- For EnvelopeStateOnlyMovesForward, OutputIsWrittenOnlyByTheTick, OnlyMidiBytesTouchTheFraming and
MidiBytesWriteOnlyVoiceZero: every kind of event has a next state, in which the channels and voices
are. -/
theorem witness_events_with_a_step :
    ([.reset, .tick, .cmd 0x50000000, .midi 0x90, .rxOverflow] : List Event).map
      (fun e => ((voiceOf (stateOf (takeEvent e State.reset)) 0 0).isSome,
        (regsOf (stateOf (takeEvent e State.reset)) 0).isSome)) = List.replicate 5 (true, true) := by
  decide

/-- A command opens a gate that was closed. -/
theorem witness_OnlyNoteStartsOpenAGate :
    (voiceOf (stateOf (takeEvent (.cmd 0x50000000) State.reset)) 0 0).map (·.gate) = some true ∧
    (State.reset.voice? 0 0).map (·.gate) = some false := by decide

/-- The events that are ticks and those that are not. -/
theorem witness_carriesUpdateAll :
    carriesUpdateAll (.cmd 0xBFFFFFFF) = true ∧ carriesUpdateAll (.cmd 0xA0000000) = false ∧
    carriesUpdateAll .tick = false := by decide

/-- Two states that differ in channel 2 agree on channel 1 (S6). -/
theorem witness_ChannelsAreIndependent :
    AgreeOnChannel 1 State.reset
      (State.reset.modifyRegs 2 fun r => { r with enable := true, volume := 3 }) ∧
    State.reset.framing =
      (State.reset.modifyRegs 2 fun r => { r with enable := true, volume := 3 }).framing ∧
    (stateOf (takeEvent .tick State.reset)).isSome = true ∧
    (stateOf (takeEvent .tick
      (State.reset.modifyRegs 2 fun r => { r with enable := true, volume := 3 }))).isSome = true :=
  ⟨⟨by decide, fun _ => rfl⟩, by decide, by decide, by decide⟩

theorem witness_RunWithoutOverflowNeverStops :
    (offered [.tick, .reset]).halted = false ∧ .rxOverflow ∉ (offered [.tick, .reset]).inputs := by
  decide

end Sys2Proof.Tests
end

section
/-! The voices that the state holds (spec/10_state.md). -/

namespace Sys2Proof.Proofs

open Sys2Proof.Machine

/-- Settles O1: the shape of the state decides which voices there are (`voice?_isSome`), and below
the seventh channel only the bound `NV(c)` is left of it (R26). -/
theorem voicesExistExactlyBelowNV : Obligations.VoicesExistExactlyBelowNV := by
  intro s c v hc
  calc (s.voice? c v).isSome = true
      ↔ c < 7 ∧ v < Config.nv c := voice?_isSome s c v
    _ ↔ v < Config.nv c := and_iff_right hc
    _ ↔ v < (if c < 4 then 4 else 1) := by rw [nv_eq]

end Sys2Proof.Proofs
end

section
/-! The bits of a command word that its row uses, and the operands that are read from them
(spec/30_encoding.md section 1). -/

namespace Sys2Proof.Proofs

open Sys2Proof.Machine

/-! ### The fields of a masked word -/

/-- A mask that leaves out the bits 21:16 masks a word field by field. -/
theorem and_enc (w : CommandWord) (op ch : Nibble) (vc : BitVec 2) (d : BitVec 16) :
    w &&& enc op ch vc d =
      enc (opField w &&& op) (chField w &&& ch) (vcField w &&& vc) (dataField w &&& d) := by
  apply BitVec.eq_of_getLsbD_eq
  intro i hi
  simp only [BitVec.getLsbD_and, getLsbD_enc, opField, chField, vcField, dataField,
    BitVec.getLsbD_extractLsb']
  split
  · next h => simp [h]
  split
  · simp
  split
  · next h => simp [show i - 22 < 2 by omega, show 22 + (i - 22) = i by omega]
  split
  · next h => simp [show i - 24 < 4 by omega, show 24 + (i - 24) = i by omega]
  · simp [show i - 28 < 4 by omega, show 28 + (i - 28) = i by omega]

theorem nibble_and_ones (x : Nibble) : x &&& 0xF#4 = x := BitVec.and_allOnes

theorem voice_and_ones (x : BitVec 2) : x &&& 3#2 = x := BitVec.and_allOnes

theorem data_and_ones (x : BitVec 16) : x &&& 0xFFFF#16 = x := BitVec.and_allOnes

theorem dataField_and_low7 (w : CommandWord) :
    dataField w &&& 0x7F#16 = (data7Field w).setWidth 16 := by
  apply BitVec.eq_of_toNat_eq
  rw [BitVec.toNat_and, BitVec.toNat_setWidth, dataField_toNat, data7Field_toNat,
    show (0x7F#16).toNat = 2 ^ 7 - 1 from rfl, Nat.and_two_pow_sub_one_eq_mod]
  omega

theorem dataField_and_low14 (w : CommandWord) :
    dataField w &&& 0x3FFF#16 = (data14Field w).setWidth 16 := by
  apply BitVec.eq_of_toNat_eq
  rw [BitVec.toNat_and, BitVec.toNat_setWidth, dataField_toNat, data14Field_toNat,
    show (0x3FFF#16).toNat = 2 ^ 14 - 1 from rfl, Nat.and_two_pow_sub_one_eq_mod]
  omega

/-! ### The bits each row uses -/

/-- The bits of a command word that the row of the operation code `op` uses, at 1: `op` always, and
of `ch`, `vc` and `data` what R82 and R85 name. -/
def usedBits (op : Nibble) : CommandWord :=
  match op with
  | 0x1#4 => enc 0xF 0xF 0 0
  | 0x2#4 => enc 0xF 0xF 0 0
  | 0x3#4 => enc 0xF 0xF 0 0xFFFF
  | 0x4#4 => enc 0xF 0xF 0 0x7F
  | 0x5#4 => enc 0xF 0xF 3 0
  | 0x6#4 => enc 0xF 0xF 3 0
  | 0x7#4 => enc 0xF 0xF 3 0xFFFF
  | 0x8#4 => enc 0xF 0xF 3 0xFFFF
  | 0x9#4 => enc 0xF 0xF 3 0x7F
  | 0xA#4 => enc 0xF 0xF 3 0x3FFF
  | _ => enc 0xF 0 0 0

/-- The sixteen masks of `CommandDecodingReadsExactlyTheUsedBits` are the used bits of the rows. -/
theorem masks_getElem? : ∀ op : Nibble,
    [0xF0000000#32, 0xFF000000#32, 0xFF000000#32, 0xFF00FFFF#32, 0xFF00007F#32, 0xFFC00000#32,
      0xFFC00000#32, 0xFFC0FFFF#32, 0xFFC0FFFF#32, 0xFFC0007F#32, 0xFFC03FFF#32, 0xF0000000#32,
      0xF0000000#32, 0xF0000000#32, 0xF0000000#32, 0xF0000000#32][op.toNat]? =
        some (usedBits op) := by
  decide

/-- Every row uses the operation code. -/
@[simp] theorem opField_and_usedBits (w : CommandWord) (op : Nibble) :
    opField (w &&& usedBits op) = opField w := by
  obtain ⟨ch, vc, d, h⟩ : ∃ ch vc d, usedBits op = enc 0xF ch vc d := by
    unfold usedBits
    split <;> exact ⟨_, _, _, rfl⟩
  rw [h, and_enc, opField_enc]
  exact nibble_and_ones _

/-- R86: the encoder gives a decoded word back with the bits its row ignores at 0. -/
theorem encode_decodeCommand (w : CommandWord) :
    encode (decodeCommand w) = .cmd (w &&& usedBits (opField w)) := by
  unfold decodeCommand
  split <;>
    simp [*, encode, usedBits, and_enc, nibble_and_ones, voice_and_ones, data_and_ones,
      dataField_and_low7, dataField_and_low14]

/-- R86: no row reads a bit it ignores. -/
theorem decodeCommand_and_usedBits (w : CommandWord) :
    decodeCommand (w &&& usedBits (opField w)) = decodeCommand w := by
  unfold decodeCommand
  rw [opField_and_usedBits]
  split <;>
    simp [*, usedBits, and_enc, nibble_and_ones, voice_and_ones, data_and_ones,
      dataField_and_low7, dataField_and_low14]

/-- Settles O14: the mask named by the statement is `usedBits` of the word's row. A word that agrees
with `w` in those bits has the same row, since every row uses the operation code, so both decode as
the masked word does. -/
theorem commandDecodingReadsExactlyTheUsedBits :
    Obligations.CommandDecodingReadsExactlyTheUsedBits := by
  intro w used hused
  rw [← opField_toNat, masks_getElem?, Option.some.injEq] at hused
  subst hused
  refine ⟨encode_decodeCommand w, fun w' hw => ?_⟩
  have hop : opField w' = opField w := by
    rw [← opField_and_usedBits w', hw, opField_and_usedBits]
  calc decodeCommand w'
      = decodeCommand (w' &&& usedBits (opField w)) := by rw [← hop, decodeCommand_and_usedBits]
    _ = decodeCommand (w &&& usedBits (opField w)) := by rw [hw]
    _ = decodeCommand w := decodeCommand_and_usedBits w

/-! ### The data operand of each row -/

/-- The codes of R18 are 0 to 4; a code above them names no waveform (R174). -/
theorem waveOfCode_eq_none {code : BitVec 16} (h : 4 < code.toNat) : waveOfCode code = none := by
  unfold waveOfCode
  split
  iterate 5 exact absurd h (by decide)
  rfl

/-- `SET_WAVEFORM` with a code above 4 changes nothing (R85, R174). -/
theorem exec_setWaveform_illegal {ch : Nibble} {code : BitVec 16} {s : State}
    (hs : s.halted = false) (h : 4 < code.toNat) : exec (.setWaveform ch code) s = .next s := by
  rw [exec_running _ _ hs, effect, selectWaveform, waveOfCode_eq_none h]

/-- Settles O15: the operation code picks the row, and the numbers of the statement are the fields
that row reads (`chField_eq`, `vcField_eq`, `dataField_eq` and its parts). -/
theorem dataOperandsAreTheStatedLowBits : Obligations.DataOperandsAreTheStatedLowBits := by
  intro w op ch vc hop hch hvc
  rw [← chField_eq] at hch
  rw [← vcField_eq] at hvc
  subst hch hvc
  have row : ∀ n, op = n → opField w = BitVec.ofNat 4 n := by
    rintro n rfl
    rw [hop, opField_eq]
  rw [← dataField_eq, ← data7Field_eq, ← data14Field_eq, ← dataField_toNat]
  refine ⟨fun h => ?_, fun h => ?_, fun h => ?_, fun h => ?_, fun h => ?_, fun h => ?_⟩
  · have hdec : decodeCommand w = .setWaveform (chField w) (dataField w) := by
      simp [decodeCommand, row _ h]
    refine ⟨hdec, fun s hs hcode => ?_⟩
    rw [hdec]
    exact exec_setWaveform_illegal hs hcode
  all_goals simp [decodeCommand, row _ h]

end Sys2Proof.Proofs
end

section
/-! The MIDI messages: the status byte that opens one (spec/30_encoding.md section 2) and the data byte
that completes one of two (spec/42_midi.md sections 1 and 2). -/

namespace Sys2Proof.Proofs

open Sys2Proof.Machine

/-! ### The last data byte -/

/-- The second of two data bytes dispatches the message with both and closes it (R206, R207). -/
theorem exec_dataByte_second {s : State} (d : Data7) (hs : s.halted = false)
    (hdata : s.framing.mpState = .data) (hneed : s.framing.mpNeed = 1)
    (hcount : dataCount s.framing.mpType s.framing.mpSub = 2) :
    exec (.dataByte d) s =
      .next (closeMessage
        (dispatch s.framing.mpType s.framing.mpSub (.two s.framing.mpD1 d) s)) := by
  have hlast : s.framing.mpNeed ≠ 2 := by rw [hneed]; decide
  simp [exec_running _ _ hs, effect, byteEffect, hdata, takeData_last d s hlast, hcount]

/-- Closing a message keeps what its dispatch did to a voice. -/
theorem changesOnlyVoice_closeMessage {s t : State} {c v : Nat} {f : Voice → Voice}
    (h : ChangesOnlyVoice s t c v f) : ChangesOnlyVoice s (closeMessage t) c v f where
  changed := h.changed
  otherVoices := h.otherVoices
  regs := h.regs
  halted := h.halted
  inputs := h.inputs

/-- R93: the second data byte holds the high 7 bits of the bend value. -/
theorem bendValue_eq (d1 d2 : Data7) :
    bendValue d1 d2 = BitVec.ofNat 14 (d2.toNat * 128 + d1.toNat) := by
  apply BitVec.eq_of_toNat_eq
  rw [bendValue, toNat_append_eq, BitVec.toNat_ofNat]
  omega

/-- Settles O46: the byte completes the message (`exec_dataByte_second`), whose dispatch sets the
bend of voice 0 of the nibble's channel (R203). -/
theorem pitchBendDispatch : Obligations.PitchBendDispatch := by
  intro s d2 c hs hdata hneed htype hc
  have hexec := exec_dataByte_second d2 hs hdata hneed (by rw [htype]; rfl)
  rw [htype] at hexec
  have hchannel : c = midiChannel s.framing.mpSub := hc
  rw [hchannel, ← bendValue_eq]
  refine ⟨_, hexec, ?_, changesOnlyVoice_closeMessage (modifyVoice_changesOnly s _ 0 _)⟩
  rw [closeMessage_framing, dispatch_framing]

/-! ### Status bytes -/

/-- R89: the byte of type `t` and low nibble `x` as a number. -/
theorem ofNat_eq_statusByteOf (t x : Nibble) :
    BitVec.ofNat 8 (16 * t.toNat + x.toNat) = statusByteOf t x := by
  apply BitVec.eq_of_toNat_eq
  rw [statusByteOf, toNat_append_eq, BitVec.toNat_ofNat]
  omega

section Idle

variable {s : State} {i : Instr} {t x : Nibble}

/-- A running block in `IDLE` opens the message that a status byte names (R201). -/
theorem exec_idleStatusByte (hs : s.halted = false) (hidle : s.framing.mpState = .idle)
    (hdec : decodeIdleByte (statusByteOf t x) = i) : exec i s = .next (openMessage t x s) := by
  rw [exec_running _ _ hs, ← hdec, effect_idleByte _ _ hidle, typeField_statusByteOf,
    subField_statusByteOf]

/-- With data bytes to come the message is opened, whatever it is (R201). -/
theorem exec_idleStatusByte_opens {n : Fin 3} (hs : s.halted = false)
    (hidle : s.framing.mpState = .idle) (hdec : decodeIdleByte (statusByteOf t x) = i)
    (hn : dataCount t x = n) (h0 : n ≠ 0) :
    exec i s = .next
      { s with
        framing :=
          { mpState := .data, mpType := t, mpSub := x, mpNeed := n, mpD1 := s.framing.mpD1 } } := by
  subst hn
  rw [exec_idleStatusByte hs hidle hdec, openMessage_eq, if_neg h0]

/-- Without data bytes the message is complete and changes nothing (R201). -/
theorem exec_idleStatusByte_complete (hs : s.halted = false)
    (hidle : s.framing.mpState = .idle) (hdec : decodeIdleByte (statusByteOf t x) = i)
    (h0 : dataCount t x = 0) : exec i s = .next s := by
  rw [exec_idleStatusByte hs hidle hdec, openMessage_eq, if_pos h0]

end Idle

/-- Settles O40: for each row the byte decodes to its message (R202) and `dataCount` is the
stated length (R90, R91); the rest is the same for all rows with data bytes and for all rows without. -/
theorem statusByteOpensMessageOfStatedLength :
    Obligations.StatusByteOpensMessageOfStatedLength := by
  intro s sub hs hidle
  constructor
  · intro i t n x hrow
    have hcode : decodeIdleByte (statusByteOf t x) = i ∧ dataCount t x = n ∧ n ≠ 0 := by
      simp only [List.mem_cons, List.not_mem_nil, or_false, Prod.mk.injEq] at hrow
      rcases hrow with h | h | h | h | h | h | h | h | h | h <;> obtain ⟨rfl, rfl, rfl, rfl⟩ := h
      all_goals exact ⟨by simp [decodeIdleByte, decodeSystem], rfl, by decide⟩
    obtain ⟨hdec, hn, h0⟩ := hcode
    rw [ofNat_eq_statusByteOf]
    exact ⟨hdec, exec_idleStatusByte_opens hs hidle hdec hn h0⟩
  · intro i x hrow
    have hcode : decodeIdleByte (statusByteOf 0xF x) = i ∧ dataCount 0xF x = 0 := by
      simp only [List.mem_cons, List.not_mem_nil, or_false, Prod.mk.injEq] at hrow
      rcases hrow with h | h | h | h | h | h | h | h | h | h | h | h | h <;>
        obtain ⟨rfl, rfl⟩ := h <;> exact ⟨rfl, rfl⟩
    obtain ⟨hdec, h0⟩ := hcode
    have hbyte : BitVec.ofNat 8 (16 * 0xF + x.toNat) = statusByteOf 0xF x :=
      ofNat_eq_statusByteOf 0xF x
    rw [hbyte]
    exact ⟨hdec, exec_idleStatusByte_complete hs hidle hdec h0⟩

end Sys2Proof.Proofs
end

section
/-! What a tick makes of one voice: its envelope, stage by stage, and what it contributes to the mix
(spec/40_synthesis.md). -/

namespace Sys2Proof.Proofs

open Sys2Proof.Machine

/-! ### The waveforms -/

/-- R131, R138: the shift by `RES_DIFF` as a division. -/
theorem tableIndex_eq (n : Nat) : tableIndex n = BitVec.ofNat 10 (n / 16) := by
  apply BitVec.eq_of_toNat_eq
  rw [tableIndex_toNat, BitVec.toNat_ofNat]

/-- R139: half the phase mask is 8191. -/
theorem squareSample_eq (count : Phase) :
    squareSample count = if count.toNat < 8191 then 0 else 1023 := rfl

/-- Settles O34: the multiplexer (R138) has one case for each waveform; the square wave compares the
phase itself, the others read their table at `tableIndex_eq`. -/
theorem waveformMultiplexer : Obligations.WaveformMultiplexer := by
  intro count i
  have hindex : tableIndex count.toNat = i := tableIndex_eq _
  refine ⟨squareSample_eq count, ?_, ?_, ?_, ?_⟩
  all_goals rw [← hindex]; rfl

/-! ### The contribution to the mix -/

/-- R140: the test is on the voice before its step. -/
theorem silent_iff (V : Voice) : V.silent = true ↔ V.gate = false ∧ V.adsrState ≠ .attack := by
  simp [Voice.silent]

theorem voiceOutput_silent (w : Wave) {before : Voice} (after : Voice) (h : before.silent = true) :
    voiceOutput w before after = 0 :=
  if_pos h

theorem voiceOutput_sounding (w : Wave) {before : Voice} (after : Voice)
    (h : ¬ before.silent = true) :
    voiceOutput w before after = waveSample w after.count * after.env / 2 ^ 10 :=
  if_neg h

/-- Settles O36: the two clauses are the two sides of the silence test (`silent_iff`), and the
sample of the statement is what the multiplexer answers at the new phase. -/
theorem voiceOutputIsSilentOrScaledSample : Obligations.VoiceOutputIsSilentOrScaledSample := by
  intro w V V' i sample
  have hsample : waveSample w V'.count = sample := by
    obtain ⟨square, sine, triangle, ramp, noise⟩ := waveformMultiplexer V'.count
    cases w with
    | sine => exact sine
    | triangle => exact triangle
    | ramp => exact ramp
    | square => exact square
    | noise => exact noise
  refine ⟨fun hgate hstage => voiceOutput_silent w V' ((silent_iff V).2 ⟨hgate, hstage⟩),
    fun h => ?_⟩
  have hsounds : ¬ V.silent = true := by
    rw [silent_iff]
    rintro ⟨hgate, hstage⟩
    rcases h with hon | hattack
    · rw [hgate] at hon
      exact Bool.false_ne_true hon
    · exact hstage hattack
  rw [← hsample]
  exact voiceOutput_sounding w V' hsounds

/-! ### The stages of the envelope -/

/-- R126 in the spec's numbers. -/
theorem attackTarget_eq (vel : Data7) :
    attackTarget vel = 1023 * 1016 * (vel.toNat : Int) / 2 ^ 17 + 8 := rfl

/-- R127 in the spec's numbers. -/
theorem attackEnv_eq (vel : Data7) (n : Nat) :
    attackEnv vel n =
      tableRead .attackCurve (BitVec.ofNat 10 (n / 16)) * 1023 * (vel.toNat : Int) / 2 ^ 17
        + 8 := by
  rw [← tableIndex_eq]
  rfl

/-- R128 and R130 in the spec's numbers. -/
theorem decayEnv_eq (start target : Int) (n : Nat) :
    decayEnv start target n =
      tableRead .decayCurve (BitVec.ofNat 10 (n / 16)) * (start - target) / 2 ^ 10 + target := by
  rw [← tableIndex_eq]
  rfl

/-- The three stages that count (R125, R128, R130) have one shape: an exhausted counter enters the
next stage and keeps `env` (R133), any other counter is stored whole and `env` is written. -/
theorem advance_of_counting {V : Voice} {stage next : Adsr} {target value : Int}
    (hstage : V.adsrState = stage)
    (hstep : V.envelopeStep =
      if 16383 < V.nextEnvCount then V.enterStage next target else V.stayInStage value) :
    if 16383 < V.nextEnvCount then
      V.advance.adsrState = next ∧ V.advance.envCount = 0 ∧ V.advance.envStart = target ∧
        V.advance.env = V.env
    else
      V.advance.adsrState = stage ∧ V.advance.envCount.toNat = V.nextEnvCount ∧
        V.advance.envStart = V.envStart ∧ V.advance.env = value := by
  rw [advance_adsrState, advance_envCount, advance_envStart, advance_env]
  split
  · next h =>
    rw [hstep, if_pos h]
    exact ⟨rfl, rfl, rfl, rfl⟩
  · next h =>
    rw [hstep, if_neg h]
    exact ⟨hstage, stayInStage_envCount_toNat V value h, rfl, rfl⟩

/-- Settles O29: ATTACK counts, and the value it writes lies in `attackEnv_range`. -/
theorem attackStageOfAVoice : Obligations.AttackStageOfAVoice := by
  intro w V hV V' target n
  have h := advance_of_counting hV (envelopeStep_attack hV)
  rw [attackTarget_eq] at h
  split at h
  · next hn => exact (if_pos hn).mpr h
  · next hn =>
    obtain ⟨hstage, hcount, hstart, henv⟩ := h
    have hrange : 8 ≤ V'.env ∧ V'.env ≤ 1022 := henv ▸ attackEnv_range V.velocity n
    exact (if_neg hn).mpr ⟨hstage, hcount, hstart, henv.trans (attackEnv_eq _ _), hrange⟩

/-- Settles O30: DECAY counts, towards `SUSTAIN_LEVEL`. -/
theorem decayStageOfAVoice : Obligations.DecayStageOfAVoice := by
  intro w V hV V' n
  have h := advance_of_counting hV (envelopeStep_decay hV)
  rw [decayEnv_eq] at h
  exact h

/-- Settles O31: of the envelope only the stage and the counter can change, and only when the gate
is clear. -/
theorem sustainStageOfAVoice : Obligations.SustainStageOfAVoice := by
  intro w V hV V'
  have hstep := envelopeStep_sustain hV
  simp only [V', voiceStep_fst, advance_adsrState, advance_envCount, advance_envStart, advance_env]
  split
  · next hgate =>
    rw [hstep, if_pos hgate]
    exact ⟨rfl, rfl, hV, rfl⟩
  · next hgate =>
    rw [hstep, if_neg hgate]
    exact ⟨rfl, rfl, rfl, rfl⟩

/-- Settles O32: RELEASE counts, towards 0, so the difference is the start point itself. -/
theorem releaseStageOfAVoice : Obligations.ReleaseStageOfAVoice := by
  intro w V hV V' n
  have h := advance_of_counting hV (envelopeStep_release hV)
  rw [decayEnv_eq, sub_zero, add_zero] at h
  exact h

end Sys2Proof.Proofs
end

section
/-! The tick of the whole block, channel by channel (spec/40_synthesis.md sections 1 and 5). -/

namespace Sys2Proof.Proofs

open Sys2Proof.Machine

/-- `C` is channel `c` of the state, as the views of registers and voices show it. -/
structure HoldsChannel (s : State) (c : Nat) {nv : Nat} (C : Channel nv) : Prop where
  regs : s.regs? c = some C.toChannelRegs
  voice : ∀ v, s.voice? c v = C.voices[v]?

theorem holdsChannel_melodic {s : State} {c : Nat} {C : Channel Config.melodicVoices} (hc : c < 4)
    (hC : s.melodic[c]? = some C) : HoldsChannel s c C where
  regs := by rw [regs?_eq, if_pos hc, hC]; rfl
  voice v := by rw [voice?_eq, if_pos hc, hC]; rfl

theorem holdsChannel_auxiliary {s : State} {c : Nat} {C : Channel Config.auxiliaryVoices}
    (hc : ¬ c < 4) (hC : s.auxiliary[c - 4]? = some C) : HoldsChannel s c C where
  regs := by rw [regs?_eq, if_neg hc, hC]; rfl
  voice v := by rw [voice?_eq, if_neg hc, hC]; rfl

/-- R120, R122: a tick steps each channel that there is, by itself. -/
theorem tick_steps_channel {s : State} {c : Nat} {r : ChannelRegs} (h : s.regs? c = some r) :
    ∃ nv, nv = Config.nv c ∧ ∃ C : Channel nv,
      C.toChannelRegs = r ∧ HoldsChannel s c C ∧ HoldsChannel (tick s) c C.step := by
  rw [regs?_eq] at h
  split at h
  · next hc =>
    obtain ⟨C, hC, hr⟩ := Option.map_eq_some_iff.1 h
    refine ⟨4, by rw [nv_eq, if_pos hc], C, hr, holdsChannel_melodic hc hC, ?_⟩
    exact holdsChannel_melodic hc (by rw [tick_melodic, getElem?_mapVec, hC]; rfl)
  · next hc =>
    obtain ⟨C, hC, hr⟩ := Option.map_eq_some_iff.1 h
    refine ⟨1, by rw [nv_eq, if_neg hc], C, hr, holdsChannel_auxiliary hc hC, ?_⟩
    exact holdsChannel_auxiliary hc (by rw [tick_auxiliary, getElem?_mapVec, hC]; rfl)

/-- What the voices of a channel contribute on a tick, in order (R142). -/
def voiceOutputs {nv : Nat} (C : Channel nv) : List Int :=
  C.voices.toList.map fun V => (voiceStep C.waveform V).2

@[simp] theorem length_voiceOutputs {nv : Nat} (C : Channel nv) : (voiceOutputs C).length = nv := by
  simp [voiceOutputs]

@[simp] theorem getElem?_voiceOutputs {nv : Nat} (C : Channel nv) (v : Nat) :
    (voiceOutputs C)[v]? = C.voices[v]?.map fun V => (voiceStep C.waveform V).2 := by
  simp [voiceOutputs]

/-- R123, R143, R144: the level in the spec's numbers. -/
theorem level_eq {nv : Nat} (C : Channel nv) :
    C.level = (voiceOutputs C).sum / nv * C.volume.toNat / 128 := by
  rw [Channel.level, mixSum_eq]
  rfl

/-- Settles O27: `tick_steps_channel` reduces a tick to the step of each channel, which an enabled
channel makes with its `voiceOutputs` and a disabled one does not make at all (R146). -/
theorem tickStepsExactlyTheEnabledChannels : Obligations.TickStepsExactlyTheEnabledChannels := by
  intro s hs
  refine ⟨tick s, exec_running .updateAll s hs, rfl, hs, rfl, fun c r hr => ?_⟩
  obtain ⟨nv, hnv, C, rfl, before, after⟩ := tick_steps_channel hr
  rw [nv_eq] at hnv
  have hregs := after.regs
  rw [step_regs] at hregs
  have hvoice := after.voice
  rw [step_voices] at hvoice
  split
  · next hon =>
    rw [if_pos hon] at hregs hvoice
    refine ⟨fun v => ?_, voiceOutputs C, ?_, fun v V hV => ?_, ?_⟩
    · rw [hvoice, getElem?_mapVec, before.voice]
    · rw [length_voiceOutputs, hnv]
    · rw [getElem?_voiceOutputs, ← before.voice, hV]
      rfl
    · have hdivisor : (nv : Int) = if c < 4 then 4 else 1 := by
        rw [hnv]
        split <;> rfl
      rw [hregs, level_eq, hdivisor]
  · next hoff =>
    rw [if_neg hoff] at hregs hvoice
    exact ⟨hregs, fun v => (hvoice v).trans (before.voice v).symm⟩

end Sys2Proof.Proofs
end

section
/-! The control commands (spec/41_control.md): the word that carries each, and what it changes and
leaves unchanged. -/

namespace Sys2Proof.Proofs

open Sys2Proof.Machine

/-! ### The fields of a word, given as numbers -/

theorem opField_of_div {w : CommandWord} {n : Nat} (h : w.toNat / 2 ^ 28 = n) :
    opField w = BitVec.ofNat 4 n := by
  rw [opField_eq, h]

theorem chField_of_toNat {w : CommandWord} {ch : Nibble} (h : w.toNat / 2 ^ 24 % 16 = ch.toNat) :
    chField w = ch :=
  BitVec.eq_of_toNat_eq ((chField_toNat w).trans h)

theorem vcField_of_toNat {w : CommandWord} {vc : BitVec 2} (h : w.toNat / 2 ^ 22 % 4 = vc.toNat) :
    vcField w = vc :=
  BitVec.eq_of_toNat_eq ((vcField_toNat w).trans h)

theorem dataField_of_toNat {w : CommandWord} {d : BitVec 16} (h : w.toNat % 2 ^ 16 = d.toNat) :
    dataField w = d :=
  BitVec.eq_of_toNat_eq ((dataField_toNat w).trans h)

theorem data7Field_of_toNat {w : CommandWord} {d : Data7} (h : w.toNat % 2 ^ 7 = d.toNat) :
    data7Field w = d :=
  BitVec.eq_of_toNat_eq ((data7Field_toNat w).trans h)

theorem data14Field_of_toNat {w : CommandWord} {d : BitVec 14} (h : w.toNat % 2 ^ 14 = d.toNat) :
    data14Field w = d :=
  BitVec.eq_of_toNat_eq ((data14Field_toNat w).trans h)

/-! ### Commands without operands -/

/-- R182: operation code 0xB is `UPDATE_ALL`, whatever the other bits. -/
theorem decodeCommand_updateAll {w : CommandWord} (h : w.toNat / 2 ^ 28 = 11) :
    decodeCommand w = .updateAll := by
  simp [decodeCommand, opField_of_div h]

/-- R87: the operation codes 0xC to 0xF are reserved, whatever the other bits. -/
theorem decodeCommand_reserved {w : CommandWord} (h : 12 ≤ (opField w).toNat) :
    decodeCommand w = .reservedCF (opField w) := by
  unfold decodeCommand
  split
  case h_13 => rfl
  all_goals
    next hop =>
    rw [hop] at h
    exact absurd h (by decide)

/-- Settles O18: neither command has an effect, and the operation code alone picks its row. -/
theorem nopAndReservedChangeNothing : Obligations.NopAndReservedChangeNothing := by
  intro s op hs
  refine ⟨exec_running .nop s hs, exec_running (.reservedCF op) s hs, fun w hop => ?_,
    fun w hres hop => ?_⟩
  · simp [decodeCommand, opField_of_div hop]
  · rw [← opField_toNat] at hres hop
    rw [decodeCommand_reserved hres, BitVec.eq_of_toNat_eq hop]

/-- A running block takes the event it is offered (R13). -/
theorem step_running_cons {s : State} (e : Event) (es : List Event) (hs : s.halted = false) :
    step { s with inputs := e :: es } = takeEvent e { s with inputs := es } :=
  step_running (s := { s with inputs := e :: es }) hs rfl

/-- A halted block loses an event that is no `RESET` (R255). -/
theorem step_halted_cons {s : State} (e : Event) (es : List Event) (hs : s.halted = true)
    (he : e ≠ .reset) : step { s with inputs := e :: es } = step { s with inputs := es } := by
  have hlost : afterReset (e :: es) = afterReset es := by
    cases e with
    | reset => exact absurd rfl he
    | _ => rfl
  simp [step, nextStep, haltedStep, hs, hlost]

/-- R182: taken by the block, an `UPDATE_ALL` word is a `TICK`. -/
theorem takeEvent_updateAll {w : CommandWord} (s : State) (h : w.toNat / 2 ^ 28 = 11) :
    takeEvent (.cmd w) s = takeEvent .tick s :=
  calc takeEvent (.cmd w) s
      = exec .updateAll s := by rw [takeEvent, decodeCommand_updateAll h]
    _ = takeEvent .tick s := exec_eq .updateAll s

/-- Settles O28: a running block takes both events alike (`takeEvent_updateAll`); a halted one loses
both. -/
theorem updateAllIsOneTick : Obligations.UpdateAllIsOneTick := by
  intro s w es hop
  by_cases hs : s.halted = true
  · rw [step_halted_cons (.cmd w) es hs nofun, step_halted_cons .tick es hs nofun]
  · rw [Bool.not_eq_true] at hs
    rw [step_running_cons (.cmd w) es hs, step_running_cons .tick es hs, takeEvent_updateAll _ hop]

/-! ### Commands on the registers of a channel -/

/-- A command that changes the registers of a channel by `f` completes, changes a valid channel by
`f` and nothing else, and is a no-op on an invalid one (R170). -/
theorem exec_channelCommand {i : Instr} {s : State} {ch : Nibble} {f : ChannelRegs → ChannelRegs}
    (hs : s.halted = false) (hi : effect i s = onChannel ch f s) :
    ∃ t, exec i s = .next t ∧ t.framing = s.framing ∧ (7 ≤ ch.toNat → t = s) ∧
      (ch.toNat < 7 → ChangesOnlyRegs s t ch.toNat f) := by
  obtain ⟨hvalid, hinvalid⟩ := onChannel_spec ch f s
  exact ⟨onChannel ch f s, by rw [exec_running i s hs, hi], onChannel_framing ch f s, hinvalid,
    hvalid⟩

/-- Settles O19: `ENABLE` is the channel command that sets both enables (R45). -/
theorem enableSetsEnableAndOutEn : Obligations.EnableSetsEnableAndOutEn := by
  intro s ch hs
  refine ⟨fun w hop hch => ?_, exec_channelCommand hs rfl⟩
  simp [decodeCommand, opField_of_div hop, chField_of_toNat hch]

/-- Settles O20: `DISABLE` is the channel command that clears both enables (R45). -/
theorem disableClearsEnableAndOutEn : Obligations.DisableClearsEnableAndOutEn := by
  intro s ch hs
  refine ⟨fun w hop hch => ?_, exec_channelCommand hs rfl⟩
  simp [decodeCommand, opField_of_div hop, chField_of_toNat hch]

/-- Settles O22: `SET_VOLUME` is the channel command that writes the level. -/
theorem setVolumeChangesOnlyVolume : Obligations.SetVolumeChangesOnlyVolume := by
  intro s ch level hs
  refine ⟨fun w hop hch hlevel => ?_, exec_channelCommand hs rfl⟩
  simp [decodeCommand, opField_of_div hop, chField_of_toNat hch, data7Field_of_toNat hlevel]

/-! ### The waveform of a channel -/

/-- The codes of R18 in their order, and no others. -/
theorem waveOfCode_eq (code : BitVec 16) : waveOfCode code = waveCodes[code.toNat]? := by
  by_cases h : 4 < code.toNat
  · rw [waveOfCode_eq_none h, List.getElem?_eq_none h]
  · obtain ⟨n, hn, rfl⟩ : ∃ n < 5, code = BitVec.ofNat 16 n :=
      ⟨code.toNat, by omega, by simp⟩
    interval_cases n <;> rfl

/-- Noise is for auxiliary channels (R174). -/
theorem waveAllowed_iff (ch : Nibble) (w : Wave) :
    waveAllowed ch w = true ↔ (w = .noise → 4 ≤ ch.toNat) := by
  have hmelodic : 1 < Config.nv ch.toNat ↔ ch.toNat < 4 := by
    rw [nv_eq]
    split <;> simp [*]
  simp [waveAllowed, hmelodic, imp_iff_not_or]

/-- R174: a waveform the channel may have is written to its registers. -/
theorem selectWaveform_allowed {ch : Nibble} {code : BitVec 16} {w : Wave} (s : State)
    (hcode : waveCodes[code.toNat]? = some w) (hw : w = .noise → 4 ≤ ch.toNat) :
    selectWaveform ch code s = onChannel ch (ChannelRegs.setWaveform w) s := by
  rw [selectWaveform, waveOfCode_eq, hcode]
  exact if_pos ((waveAllowed_iff ch w).2 hw)

/-- What `SET_WAVEFORM` can do (R174): nothing, or write a waveform the channel may have, whose code
it was given. -/
theorem selectWaveform_cases (ch : Nibble) (code : BitVec 16) (s : State) :
    selectWaveform ch code s = s ∨
      ∃ w, waveCodes[code.toNat]? = some w ∧ (w = .noise → 4 ≤ ch.toNat) ∧
        selectWaveform ch code s = onChannel ch (ChannelRegs.setWaveform w) s := by
  by_cases h : ∃ w, waveCodes[code.toNat]? = some w ∧ (w = .noise → 4 ≤ ch.toNat)
  · obtain ⟨w, hcode, hw⟩ := h
    exact .inr ⟨w, hcode, hw, selectWaveform_allowed s hcode hw⟩
  · left
    rw [selectWaveform, waveOfCode_eq]
    split
    · rfl
    · next w hcode => exact if_neg fun ha => h ⟨w, hcode, (waveAllowed_iff ch w).1 ha⟩

/-- Settles O21: where the statement refuses the code or the channel, a write that
`selectWaveform_cases` leaves possible is one on an invalid channel, a no-op. -/
theorem setWaveformStoresLegalCodesOnly : Obligations.SetWaveformStoresLegalCodesOnly := by
  intro s ch code hs
  refine ⟨fun w hop hch hcode => ?_, selectWaveform ch code s, exec_running _ s hs, ?_,
    fun hrefused => ?_, fun w hch hcode hw => ?_⟩
  · simp [decodeCommand, opField_of_div hop, chField_of_toNat hch, dataField_of_toNat hcode]
  · obtain h | ⟨w, -, -, h⟩ := selectWaveform_cases ch code s
    · rw [h]
    · rw [h, onChannel_framing]
  · obtain h | ⟨w, hcode, hw, h⟩ := selectWaveform_cases ch code s
    · exact h
    · obtain hinvalid | habove | ⟨hnoise, hmelodic⟩ := hrefused
      · exact h.trans ((onChannel_spec ch _ s).2 hinvalid)
      · rw [List.getElem?_eq_none habove] at hcode
        cases hcode
      · rw [hnoise] at hcode
        exact absurd (hw (Option.some.inj hcode).symm) (by omega)
  · rw [selectWaveform_allowed s hcode hw]
    exact (onChannel_spec ch _ s).1 hch

/-! ### Commands on a voice -/

/-- A command that changes a voice by `f` completes, changes a valid voice by `f` and nothing else,
and is a no-op on an invalid selector (R170). -/
theorem exec_voiceCommand {i : Instr} {s : State} {ch : Nibble} {vc : BitVec 2}
    {f : Voice → Voice} (hs : s.halted = false) (hi : effect i s = onVoice ch vc f s) :
    ∃ t, exec i s = .next t ∧ t.framing = s.framing ∧
      if ch.toNat < 7 ∧ vc.toNat < (if ch.toNat < 4 then 4 else 1) then
        ChangesOnlyVoice s t ch.toNat vc.toNat f
      else t = s := by
  obtain ⟨hvalid, hinvalid⟩ := onVoice_spec ch vc f s
  rw [nv_eq] at hvalid hinvalid
  refine ⟨onVoice ch vc f s, by rw [exec_running i s hs, hi], onVoice_framing ch vc f s, ?_⟩
  by_cases h : ch.toNat < 7 ∧ vc.toNat < (if ch.toNat < 4 then 4 else 1)
  · rw [if_pos h]
    exact hvalid h.1 h.2
  · rw [if_neg h]
    exact hinvalid h

/-- Settles O23: `VOICE_ON` is the voice command `Voice.start`. -/
theorem voiceOnRestartsTheAttack : Obligations.VoiceOnRestartsTheAttack := by
  intro s ch vc hs
  refine ⟨fun w hop hch hvc => ?_, exec_voiceCommand hs rfl⟩
  simp [decodeCommand, opField_of_div hop, chField_of_toNat hch, vcField_of_toNat hvc]

/-- Settles O24: `VOICE_OFF` is the voice command `Voice.stop`. -/
theorem voiceOffClearsOnlyGate : Obligations.VoiceOffClearsOnlyGate := by
  intro s ch vc hs
  refine ⟨fun w hop hch hvc => ?_, exec_voiceCommand hs rfl⟩
  simp [decodeCommand, opField_of_div hop, chField_of_toNat hch, vcField_of_toNat hvc]

/-- Settles O25: each setter is the voice command that writes its field; the rows differ in the bits
of the data operand they read (R85). -/
theorem voiceSettersWriteOneField : Obligations.VoiceSettersWriteOneField := by
  intro s ch vc d vel bend hs i f op data hsetter
  obtain ⟨rfl, rfl, rfl, rfl⟩ | ⟨rfl, rfl, rfl, rfl⟩ | ⟨rfl, rfl, rfl, rfl⟩ |
    ⟨rfl, rfl, rfl, rfl⟩ := hsetter
  all_goals refine ⟨fun w hop hch hvc hdata => ?_, exec_voiceCommand hs rfl⟩
  case inl | inr.inl =>
    simp [decodeCommand, opField_of_div hop, chField_of_toNat hch, vcField_of_toNat hvc,
      dataField_of_toNat hdata]
  case inr.inr.inl =>
    simp [decodeCommand, opField_of_div hop, chField_of_toNat hch, vcField_of_toNat hvc,
      data7Field_of_toNat hdata]
  case inr.inr.inr =>
    simp [decodeCommand, opField_of_div hop, chField_of_toNat hch, vcField_of_toNat hvc,
      data14Field_of_toNat hdata]

end Sys2Proof.Proofs
end

section
/-! The MIDI bytes that complete a message and those that change nothing in `IDLE`
(spec/42_midi.md sections 1 to 3). -/

namespace Sys2Proof.Proofs

open Sys2Proof.Machine

/-! ### A byte by the framing state (R200) -/

theorem byteEffect_idle {s : State} (d : Data7) (inIdle : State → State)
    (h : s.framing.mpState = .idle) : byteEffect d inIdle s = inIdle s := by
  simp only [byteEffect, h]

theorem byteEffect_data {s : State} (d : Data7) (inIdle : State → State)
    (h : s.framing.mpState = .data) : byteEffect d inIdle s = takeData d s := by
  simp only [byteEffect, h]

/-! ### Messages that write a voice -/

/-- The last byte of a message of two data bytes completes, and when the dispatch of the message
changes voice 0 of the nibble's channel (R203) by `f`, that and the framing are all that changes. -/
theorem exec_dataByte_changesVoice {s : State} {d : Data7} {c : Nat} {f : Voice → Voice}
    (hs : s.halted = false) (hdata : s.framing.mpState = .data) (hneed : s.framing.mpNeed = 1)
    (hcount : dataCount s.framing.mpType s.framing.mpSub = 2)
    (hdispatch : dispatch s.framing.mpType s.framing.mpSub (.two s.framing.mpD1 d) s =
      s.modifyVoice (midiChannel s.framing.mpSub) 0 f)
    (hc : c = midiChannel s.framing.mpSub) :
    ∃ t, exec (.dataByte d) s = .next t ∧
      t.framing = { s.framing with mpState := .idle, mpNeed := 0 } ∧ ChangesOnlyVoice s t c 0 f := by
  have hexec := exec_dataByte_second d hs hdata hneed hcount
  rw [hdispatch, ← hc] at hexec
  refine ⟨_, hexec, ?_, changesOnlyVoice_closeMessage (modifyVoice_changesOnly s c 0 f)⟩
  rw [closeMessage_framing, modifyVoice_framing]

/-- Settles O44: the dispatch of type 8 is the write of `NOTE_OFF` on voice 0. -/
theorem noteOffDispatch : Obligations.NoteOffDispatch := by
  intro s vel c hs hdata hneed htype hc
  exact exec_dataByte_changesVoice hs hdata hneed (by rw [htype]; rfl) (by rw [htype]; rfl) hc

/-- Settles O45: the dispatch of type 9 is the write of `NOTE_ON` on voice 0, at every velocity. -/
theorem noteOnDispatch : Obligations.NoteOnDispatch := by
  intro s vel c hs hdata hneed htype hc
  exact exec_dataByte_changesVoice hs hdata hneed (by rw [htype]; rfl) (by rw [htype]; rfl) hc

/-! ### Messages that are not dispatched -/

/-- Only the types 8, 9 and 0xE are dispatched (R210 to R218). -/
theorem dispatch_of_not_mem {t : Nibble} (sub : Nibble) (p : Payload) (s : State)
    (ht : t ∉ ([0x8, 0x9, 0xE] : List Nibble)) : dispatch t sub p s = s := by
  obtain ⟨_, _, rfl, _⟩ | ⟨_, _, rfl, _⟩ | ⟨_, _, rfl, _⟩ | h := dispatch_cases t sub p s
  · exact absurd (by decide) ht
  · exact absurd (by decide) ht
  · exact absurd (by decide) ht
  · exact h

theorem closeMessage_changesOnlyFraming (s : State) : ChangesOnlyFraming s (closeMessage s) where
  regs := regs?_closeMessage s
  voices := voice?_closeMessage s
  halted := closeMessage_halted s
  inputs := closeMessage_inputs s

/-- Settles O47: the last byte, be it the first or the second of the message, closes it, and its
dispatch does nothing (`dispatch_of_not_mem`). -/
theorem otherMessagesAreNotDispatched : Obligations.OtherMessagesAreNotDispatched := by
  intro s d hs hdata hneed htype
  have hlast : s.framing.mpNeed ≠ 2 := by rw [hneed]; decide
  have heffect : effect (.dataByte d) s = closeMessage s :=
    calc effect (.dataByte d) s
        = takeData d s := byteEffect_data d (fun s => s) hdata
      _ = closeMessage s := by rw [takeData_last d s hlast, dispatch_of_not_mem _ _ _ htype]
  exact ⟨closeMessage s, by rw [exec_running _ _ hs, heffect], closeMessage_framing s,
    closeMessage_changesOnlyFraming s⟩

/-! ### System bytes without data -/

theorem subField_toNat (b : MidiByte) : (subField b).toNat = b.toNat % 16 := by
  simp [subField]

/-- R91: of the system messages only 0xF1, 0xF2 and 0xF3 have data bytes. -/
theorem dataCount_system_eq_zero : ∀ {x : Nibble}, 4 ≤ x.toNat → dataCount 0xF x = 0 := by
  decide

theorem dataCount_of_ge_F4 {b : MidiByte} (hb : 0xF4 ≤ b.toNat) :
    dataCount (typeField b) (subField b) = 0 := by
  have hlt : b.toNat < 256 := b.isLt
  have htype : typeField b = 0xF := by
    apply BitVec.eq_of_toNat_eq
    rw [typeField_toNat]
    show b.toNat / 16 = 15
    omega
  rw [htype]
  exact dataCount_system_eq_zero (by rw [subField_toNat]; omega)

/-- In `IDLE` the byte of a message without data bytes changes nothing (R201). -/
theorem takeEvent_idleByte_complete {s : State} {b : MidiByte} (hs : s.halted = false)
    (hidle : s.framing.mpState = .idle) (h0 : dataCount (typeField b) (subField b) = 0) :
    takeEvent (.midi b) s = .next s :=
  calc takeEvent (.midi b) s
      = exec (decodeIdleByte b) s := by simp only [takeEvent, hidle, decodeMidi]
    _ = .next (openMessage (typeField b) (subField b) s) := by
        rw [exec_running _ s hs, effect_idleByte b s hidle]
    _ = .next s := by rw [openMessage_eq, if_pos h0]

/-- Settles O41: the running block takes the byte, whose message has no data bytes. -/
theorem systemBytesWithoutDataChangeNothing :
    Obligations.SystemBytesWithoutDataChangeNothing := by
  intro s b es hs hidle hb hinputs
  rw [step_running hs hinputs]
  exact takeEvent_idleByte_complete hs hidle (dataCount_of_ge_F4 hb)

/-! ### Stray bytes and the terminator -/

/-- R204, R205: in `IDLE` a byte below 0x80 is the terminator or a stray data byte. -/
theorem decodeIdleByte_dataByteOf (d : Data7) :
    decodeIdleByte (dataByteOf d) = if d = 0 then .terminator else .strayData d := by
  have hlow := typeField_dataByteOf d
  unfold decodeIdleByte
  split
  case h_9 => simp only [dataByteOf_eq_zero, maskData_dataByteOf]
  all_goals
    next htype =>
    rw [htype] at hlow
    exact absurd hlow (by decide)

/-- R92: the data byte that carries `d`, as a number. -/
theorem ofNat_eq_dataByteOf (d : Data7) : BitVec.ofNat 8 d.toNat = dataByteOf d := by
  apply BitVec.eq_of_toNat_eq
  have htop : (0#1).toNat = 0 := rfl
  rw [dataByteOf, toNat_append_eq, htop, BitVec.toNat_ofNat]
  omega

/-- Settles O42: neither instruction has an effect in `IDLE`, and a byte below 0x80 decodes to the
terminator or a stray data byte (`decodeIdleByte_dataByteOf`). -/
theorem strayBytesAndTerminatorChangeNothing :
    Obligations.StrayBytesAndTerminatorChangeNothing := by
  intro s d hs hidle
  have hstray : effect (.strayData d) s = s := byteEffect_idle d (fun s => s) hidle
  have hterminator : effect .terminator s = s := byteEffect_idle 0 (fun s => s) hidle
  refine ⟨?_, ?_, decodeIdleByte_dataByteOf 0, fun hd => ?_⟩
  · rw [exec_running _ _ hs, hstray]
  · rw [exec_running _ _ hs, hterminator]
  · have hd0 : d ≠ 0 := by rintro rfl; exact absurd hd (by decide)
    rw [ofNat_eq_dataByteOf]
    exact (decodeIdleByte_dataByteOf d).trans (if_neg hd0)

end Sys2Proof.Proofs
end

section
/-! Exceptions (spec/60_exceptions.md): the overflow of the receive buffer, and the commands that are
ignored without a fault. -/

namespace Sys2Proof.Proofs

open Sys2Proof.Machine

/-! ### The receive overflow -/

/-- Settles O8: the running block takes the event, which is `haltBlock`. -/
theorem overflowSetsHaltedOnly : Obligations.OverflowSetsHaltedOnly := by
  intro s es hs hinputs
  have hstep : step s = .next (haltBlock { s with inputs := es }) := by
    rw [step_running hs hinputs]
    exact whenRunning_running haltBlock _ hs
  exact ⟨_, hstep, haltBlock_halted _, haltBlock_framing _, haltBlock_inputs _,
    regs?_haltBlock _, voice?_haltBlock _⟩

/-! ### Ignored commands -/

/-- The operation codes 5 to 10 are the commands on the voice that the word names (R82). -/
theorem effect_decodeCommand_voice {w : CommandWord} {n : Nat} (hop : w.toNat / 2 ^ 28 = n)
    (hlo : 5 ≤ n) (hhi : n ≤ 10) :
    ∃ f, effect (decodeCommand w) = onVoice (chField w) (vcField w) f := by
  unfold decodeCommand
  rw [opField_of_div hop]
  interval_cases n <;> exact ⟨_, rfl⟩

/-- The operation codes 1, 2 and 4 are the commands on the registers of the channel that the word
names (R82). -/
theorem effect_decodeCommand_channel {w : CommandWord} {n : Nat} (hop : w.toNat / 2 ^ 28 = n)
    (hn : n = 1 ∨ n = 2 ∨ n = 4) :
    ∃ f, effect (decodeCommand w) = onChannel (chField w) f := by
  unfold decodeCommand
  rw [opField_of_div hop]
  obtain rfl | rfl | rfl := hn <;> exact ⟨_, rfl⟩

/-- `SET_WAVEFORM` on an invalid channel, with a code that is none, or with noise for a melodic
channel, is a no-op (R174). -/
theorem exec_setWaveform_refused {w : CommandWord} {s : State} (hs : s.halted = false)
    (hop : w.toNat / 2 ^ 28 = 3)
    (hrefused : 7 ≤ (chField w).toNat ∨ 4 < (dataField w).toNat ∨
      ((dataField w).toNat = 4 ∧ (chField w).toNat < 4)) :
    exec (decodeCommand w) s = .next s := by
  obtain ⟨hdec, t, hexec, -, hkeep, -⟩ :=
    setWaveformStoresLegalCodesOnly s (chField w) (dataField w) hs
  rw [hdec w hop (chField_toNat w).symm (dataField_toNat w).symm, hexec, hkeep hrefused]

/-- R251: a command on a voice is a no-op when its selectors name none. -/
theorem exec_decodeCommand_invalidVoice {w : CommandWord} {s : State} (hs : s.halted = false)
    (hlo : 5 ≤ w.toNat / 2 ^ 28) (hhi : w.toNat / 2 ^ 28 ≤ 10)
    (hinvalid : ¬((chField w).toNat < 7 ∧ (vcField w).toNat < Config.nv (chField w).toNat)) :
    exec (decodeCommand w) s = .next s := by
  obtain ⟨f, hf⟩ := effect_decodeCommand_voice rfl hlo hhi
  rw [exec_running _ _ hs, hf, (onVoice_spec _ _ f s).2 hinvalid]

/-- R251: a command on a channel or a voice is a no-op when the channel is invalid. -/
theorem exec_decodeCommand_invalidChannel {w : CommandWord} {s : State} (hs : s.halted = false)
    (hlo : 1 ≤ w.toNat / 2 ^ 28) (hhi : w.toNat / 2 ^ 28 ≤ 10) (hch : 7 ≤ (chField w).toNat) :
    exec (decodeCommand w) s = .next s := by
  obtain hregs | hwave | hvoice :
      (w.toNat / 2 ^ 28 = 1 ∨ w.toNat / 2 ^ 28 = 2 ∨ w.toNat / 2 ^ 28 = 4) ∨
        w.toNat / 2 ^ 28 = 3 ∨ 5 ≤ w.toNat / 2 ^ 28 := by omega
  · obtain ⟨f, hf⟩ := effect_decodeCommand_channel rfl hregs
    rw [exec_running _ _ hs, hf, (onChannel_spec _ f s).2 hch]
  · exact exec_setWaveform_refused hs hwave (.inl hch)
  · exact exec_decodeCommand_invalidVoice hs hvoice hhi fun h => absurd h.1 (by omega)

/-- R87, R183: a reserved command is a no-op. -/
theorem exec_decodeCommand_reserved {w : CommandWord} {s : State} (hs : s.halted = false)
    (hop : 12 ≤ w.toNat / 2 ^ 28) : exec (decodeCommand w) s = .next s := by
  rw [← opField_toNat] at hop
  rw [decodeCommand_reserved hop, exec_running _ _ hs, effect]

/-- Settles O26: the running block takes the command, and for each of the four reasons the command
is a no-op. -/
theorem invalidSelectorsAreSilentlyIgnored : Obligations.InvalidSelectorsAreSilentlyIgnored := by
  rintro s w es op ch vc data hs hinputs rfl hch hvc hdata hreason
  rw [← chField_toNat] at hch
  rw [← vcField_toNat] at hvc
  rw [← dataField_toNat] at hdata
  subst hch hvc hdata
  have hs' : ({ s with inputs := es } : State).halted = false := hs
  have hstep : step s = exec (decodeCommand w) { s with inputs := es } := step_running hs hinputs
  rw [hstep]
  obtain ⟨hlo, hhi, hch⟩ | ⟨hlo, hhi, -, hvc⟩ | ⟨hop, -, hcode⟩ | hreserved := hreason
  · exact exec_decodeCommand_invalidChannel hs' hlo hhi hch
  · exact exec_decodeCommand_invalidVoice hs' hlo hhi fun h => absurd h.2 (Nat.not_lt.2 hvc)
  · exact exec_setWaveform_refused hs' hop (.inr hcode)
  · exact exec_decodeCommand_reserved hs' hreserved

end Sys2Proof.Proofs
end

section
/-! Reset (spec/70_reset_and_hazards.md section 1). -/

namespace Sys2Proof.Proofs

open Sys2Proof.Machine

/-! ### The state that reset leaves -/

/-- R281, R283: all seven channels have the same registers after reset. -/
theorem regs?_reset {c : Nat} (hc : c < 7) : State.reset.regs? c = some ChannelRegs.reset := by
  rw [regs?_eq]
  split
  · next hmelodic =>
    have hentry : State.reset.melodic[c]? = some (Channel.reset 4) :=
      Vector.getElem?_replicate_of_lt hmelodic
    rw [hentry, Option.map_some, Channel.reset]
  · next hauxiliary =>
    have hentry : State.reset.auxiliary[c - 4]? = some (Channel.reset 1) :=
      Vector.getElem?_replicate_of_lt (show c - 4 < 3 by omega)
    rw [hentry, Option.map_some, Channel.reset]

/-- R282: a voice that there is has the values of `Voice.reset` after reset. -/
theorem eq_reset_of_voice?_reset {c v : Nat} {V : Voice}
    (h : State.reset.voice? c v = some V) : V = Voice.reset := by
  rw [voice?_eq] at h
  split at h
  all_goals
    obtain ⟨C, hC, hV⟩ := Option.bind_eq_some_iff.1 h
    obtain rfl := Vector.eq_of_mem_replicate (Vector.mem_of_getElem? hC)
    exact Vector.eq_of_mem_replicate (Vector.mem_of_getElem? hV)

/-- Settles O2: every channel holds `ChannelRegs.reset` (`regs?_reset`), and its voices are those
that there are in every state (`voicesExistExactlyBelowNV`). -/
theorem resetChannelValues : Obligations.ResetChannelValues := by
  refine ⟨fun _ => rfl, fun _ => rfl, fun c hc => ⟨ChannelRegs.reset, regs?_reset hc, ?_⟩⟩
  exact ⟨rfl, rfl, rfl, fun v => voicesExistExactlyBelowNV State.reset c v hc⟩

/-- Settles O3: every voice is `Voice.reset` (`eq_reset_of_voice?_reset`). -/
theorem resetVoiceValues : Obligations.ResetVoiceValues := by
  intro c v V h
  obtain rfl := eq_reset_of_voice?_reset h
  exact ⟨rfl, rfl, rfl, rfl, rfl, rfl, rfl, rfl, rfl, rfl, rfl⟩

/-! ### The step of the `RESET` event -/

/-- A halted block takes a `RESET` (R255). -/
theorem step_halted_reset {s : State} {es : List Event} (hs : s.halted = true)
    (hinputs : s.inputs = .reset :: es) : step s = takeEvent .reset { s with inputs := es } := by
  simp [step, nextStep, haltedStep, hs, hinputs, afterReset]

/-- Settles O7: halted (`step_halted_reset`) or running (`step_running`), the block takes the event,
and what `takeEvent` answers for it keeps of the state only the events still to come. -/
theorem resetStepsInEveryState : Obligations.ResetStepsInEveryState := by
  intro s es hinputs
  have htaken : step s = takeEvent .reset { s with inputs := es } := by
    cases hs : s.halted with
    | true => exact step_halted_reset hs hinputs
    | false => exact step_running hs hinputs
  rw [htaken, takeEvent, resetBlock]

end Sys2Proof.Proofs
end

section
/-! Decode and encode agree (spec/30_encoding.md): the round trip of every instruction, and that
every word and every byte decodes to a well-formed one. -/

namespace Sys2Proof.Proofs

open Sys2Proof.Machine

/-! ### Command words -/

/-- Every operation code below 12 names one row and no other; what is left is reserved (R87). -/
theorem wellFormed_decodeCommand (w : CommandWord) : (decodeCommand w).wellFormed = true := by
  by_cases hres : 12 ≤ (opField w).toNat
  · rw [decodeCommand_reserved hres]
    exact decide_eq_true hres
  · have hlt : w.toNat / 2 ^ 28 < 12 := by rw [← opField_toNat]; omega
    unfold decodeCommand
    generalize hop : w.toNat / 2 ^ 28 = n at hlt
    rw [opField_of_div hop]
    interval_cases n <;> rfl

/-! ### Bytes -/

/-- R89: a byte is its two nibbles. -/
theorem statusByteOf_typeField_subField (b : MidiByte) :
    statusByteOf (typeField b) (subField b) = b := by
  apply BitVec.eq_of_toNat_eq
  rw [statusByteOf, toNat_append_eq, typeField_toNat, subField_toNat]
  omega

/-- R92: masking takes nothing from a byte below 0x80. -/
theorem dataByteOf_maskData {b : MidiByte} (hb : b.toNat < 128) : dataByteOf (maskData b) = b := by
  rw [maskData_eq, Nat.mod_eq_of_lt hb, ← ofNat_eq_dataByteOf]
  apply BitVec.eq_of_toNat_eq
  simp only [BitVec.toNat_ofNat]
  omega

/-- R88: by its bit 7 a byte is a status byte or a data byte. -/
theorem eq_statusByteOf_or_eq_dataByteOf (b : MidiByte) :
    (∃ t x, 8 ≤ t.toNat ∧ b = statusByteOf t x) ∨ ∃ d, b = dataByteOf d := by
  by_cases hb : b.toNat < 128
  · exact .inr ⟨maskData b, (dataByteOf_maskData hb).symm⟩
  · refine .inl ⟨typeField b, subField b, ?_, (statusByteOf_typeField_subField b).symm⟩
    rw [typeField_toNat]
    omega

/-- R91: the sixteen system messages have the sixteen low nibbles. -/
theorem encode_decodeSystem :
    ∀ x : Nibble, encode (decodeSystem x) = .midi (statusByteOf 0xF x) := by
  decide

theorem wellFormed_decodeSystem : ∀ x : Nibble, (decodeSystem x).wellFormed = true := by
  decide

/-- What a status byte decodes to in `IDLE` is well formed and encodes to it (R90, R91). -/
theorem decodeIdleByte_statusByteOf {t : Nibble} (x : Nibble) (ht : 8 ≤ t.toNat) :
    (decodeIdleByte (statusByteOf t x)).wellFormed = true ∧
      encode (decodeIdleByte (statusByteOf t x)) = .midi (statusByteOf t x) := by
  unfold decodeIdleByte
  rw [typeField_statusByteOf, subField_statusByteOf]
  obtain ⟨n, hn, rfl⟩ : ∃ n < 16, t = BitVec.ofNat 4 n := ⟨t.toNat, t.isLt, by simp⟩
  rw [BitVec.toNat_ofNat, Nat.mod_eq_of_lt hn] at ht
  interval_cases n
  iterate 7 exact ⟨rfl, rfl⟩
  exact ⟨wellFormed_decodeSystem x, encode_decodeSystem x⟩

/-- What a data byte decodes to in `IDLE` is well formed and encodes to it (R88). -/
theorem decodeIdleByte_dataByteOf_reads (d : Data7) :
    (decodeIdleByte (dataByteOf d)).wellFormed = true ∧
      encode (decodeIdleByte (dataByteOf d)) = .midi (dataByteOf d) := by
  rw [decodeIdleByte_dataByteOf]
  split
  · next hd =>
    subst hd
    exact ⟨rfl, rfl⟩
  · next hd => exact ⟨decide_eq_true hd, rfl⟩

/-- Both kinds of byte together. -/
theorem decodeIdleByte_reads (b : MidiByte) :
    (decodeIdleByte b).wellFormed = true ∧ encode (decodeIdleByte b) = .midi b := by
  obtain ⟨t, x, ht, rfl⟩ | ⟨d, rfl⟩ := eq_statusByteOf_or_eq_dataByteOf b
  · exact decodeIdleByte_statusByteOf x ht
  · exact decodeIdleByte_dataByteOf_reads d

/-! ### The obligations -/

/-- Settles O12, constructor by constructor. A command decodes by its fields, which the encoder
writes as they are read (`opField_enc` and its like); a narrow operand comes back from the 16 bits
of `data` it was widened to. A status byte decodes by its nibbles. Two instructions need their
well-formedness: without it a reserved operation code could be that of another row, and a stray byte
the terminator. -/
theorem decodeOfEncodeIsIdentity : Obligations.DecodeOfEncodeIsIdentity := by
  intro i hwf
  cases i with
  | reservedCF op =>
    have hop : 12 ≤ (opField (enc op 0 0 0)).toNat := by
      rw [opField_enc]
      exact of_decide_eq_true hwf
    simp only [encode, decode, decodeCommand_reserved hop, opField_enc]
  | strayData d =>
    have hd : d ≠ 0 := of_decide_eq_true hwf
    simp only [encode, decode, framingOf, decodeMidi, decodeIdleByte_dataByteOf, if_neg hd]
  | dataByte d => simp only [encode, decode, framingOf, decodeMidi, maskData_dataByteOf]
  | terminator => rfl
  | noteOff | noteOn | polyPressure | controlChange | programChange | channelPressure | pitchBend =>
    simp [encode, decode, framingOf, decodeMidi, decodeIdleByte]
  | sysExclusive | sysMtcQuarterFrame | sysSongPosition | sysSongSelect | sysUndefinedF4
  | sysUndefinedF5 | sysTuneRequest | sysEndExclusive | rtTimingClock | rtUndefinedF9 | rtStart
  | rtContinue | rtStop | rtUndefinedFD | rtActiveSensing | rtSystemReset => rfl
  | nop | enable | disable | setWaveform | setVolume | voiceOn | voiceOff | voiceFrequency
  | voiceModulation | voiceVelocity | voicePitchBend | updateAll =>
    simp [encode, decode, decodeCommand]

/-- Settles O13: a command decodes alike in both framing states; a byte is a data byte in `DATA`,
and `decodeIdleByte_reads` says what it is in `IDLE`. -/
theorem decoderIsTotalAndWellFormed : Obligations.DecoderIsTotalAndWellFormed := by
  intro m
  refine ⟨fun w => ⟨_, rfl, wellFormed_decodeCommand w⟩, fun b => ⟨_, rfl, ?_⟩⟩
  cases m with
  | idle => exact (decodeIdleByte_reads b).1
  | data => rfl

/-- Settles O16, by `decodeIdleByte_reads`. -/
theorem idleByteDecodingLosesNothing : Obligations.IdleByteDecodingLosesNothing :=
  fun b => (decodeIdleByte_reads b).2

/-- Settles O17: the decoder evaluates on each of the ten words. -/
theorem knownWordsDecode : Obligations.KnownWordsDecode := by
  unfold Obligations.KnownWordsDecode
  decide

end Sys2Proof.Proofs
end

section
/-! Which event a step takes, and what a halted block does (spec/60_exceptions.md, spec/00_scope.md
section 4). -/

namespace Sys2Proof.Proofs

open Sys2Proof.Machine

/-! ### The running block -/

/-- R98: an event that decodes to an instruction in the present framing state has its meaning. -/
theorem takeEvent_of_decode {s : State} {e : Event} {i : Instr}
    (h : decode s.framing.mpState e = .ok i) : takeEvent e s = exec i s := by
  cases e with
  | cmd w =>
    obtain rfl := Except.ok.inj h
    rfl
  | midi b =>
    obtain rfl := Except.ok.inj h
    rfl
  | reset | tick | rxOverflow => cases h

/-- Settles O5: the running block takes the event, and `takeEvent_of_decode` says what it means. -/
theorem stepRunsDecodedInstruction : Obligations.StepRunsDecodedInstruction := by
  intro s e es i hs hinputs hdec
  rw [step_running hs hinputs]
  exact takeEvent_of_decode hdec

/-- The decoder reads an instruction from a table word by reading, in `IDLE`, the event that carries
the word on its port. -/
theorem decodeTableWord_eq_some {nbits w : Nat} {i : Instr} (h : decodeTableWord nbits w = some i) :
    ∃ e, wordEvent nbits w = .ok e ∧ decode .idle e = .ok i := by
  unfold decodeTableWord at h
  split at h
  · next e he =>
    refine ⟨e, he, ?_⟩
    cases hdec : decode .idle e with
    | ok j => rw [hdec] at h; exact congrArg _ (Option.some.inj h)
    | error r => rw [hdec] at h; cases h
  · cases h

/-- Settles O6: the delivered event stands before all others, and what is left when it has been
taken is the state itself. -/
theorem deliveredWordRunsNext : Obligations.DeliveredWordRunsNext := by
  intro s nbits w i hs hidle hword
  obtain ⟨e, he, hdec⟩ := decodeTableWord_eq_some hword
  have hfetch : s.withFetchWord nbits w = deliver e s := by simp only [State.withFetchWord, he]
  rw [hfetch, step_running (s := deliver e s) hs (deliver_inputs e s)]
  exact takeEvent_of_decode (s := s) (by rw [hidle, hdec])

/-- Settles O11: a running block that is offered nothing holds its state (R264). -/
theorem blockHoldsItsStateBetweenEvents : Obligations.BlockHoldsItsStateBetweenEvents := by
  intro s hs hinputs
  simp [step, nextStep, runningStep, hs, hinputs]

/-! ### The halted block -/

/-- R255: a halted block loses the events before the first `RESET`, one by one
(`step_halted_cons`). -/
theorem step_halted_append {s : State} {lost : List Event} (es : List Event)
    (hs : s.halted = true) (hlost : .reset ∉ lost) :
    step { s with inputs := lost ++ es } = step { s with inputs := es } := by
  induction lost with
  | nil => rfl
  | cons e lost ih =>
    rw [List.mem_cons, not_or] at hlost
    obtain ⟨he, hrest⟩ := hlost
    rw [List.cons_append, step_halted_cons e (lost ++ es) hs (Ne.symm he), ih hrest]

/-- With no event left a halted block is stuck (log entry 4). -/
theorem step_halted_nil {s : State} (hs : s.halted = true) :
    step { s with inputs := [] } = .fault .halted := by
  simp [step, nextStep, haltedStep, afterReset, hs]

/-- R255: to a halted block every event but `RESET` is the fault. -/
theorem takeEvent_halted {s : State} {e : Event} (hs : s.halted = true) (he : e ≠ .reset) :
    takeEvent e s = .fault .halted := by
  cases e with
  | reset => exact absurd rfl he
  | tick => exact whenRunning_halted _ s hs
  | rxOverflow => exact whenRunning_halted _ s hs
  | cmd w => rw [takeEvent, exec_eq, whenRunning_halted _ s hs]
  | midi b => rw [takeEvent, exec_eq, whenRunning_halted _ s hs]

/-- Settles O9: every meaning asks first whether the block runs (`exec_eq`), and a list without
`RESET` is lost whole (`step_halted_append`). -/
theorem haltedBlockHasNoStepButReset : Obligations.HaltedBlockHasNoStepButReset := by
  intro s hs
  refine ⟨fun i => ?_, fun e he => takeEvent_halted hs he, rfl, fun hnone => ?_⟩
  · rw [exec_eq, whenRunning_halted _ s hs]
  · calc step s
        = step { s with inputs := s.inputs ++ [] } := by rw [List.append_nil]
      _ = step { s with inputs := [] } := step_halted_append [] hs hnone
      _ = .fault .halted := step_halted_nil hs

/-- Settles O10: the lost events go (`step_halted_append`), and the `RESET` after them is taken. -/
theorem haltedBlockResumesAtNextReset : Obligations.HaltedBlockResumesAtNextReset := by
  intro s lost es hs hlost hinputs
  calc step s
      = step { s with inputs := lost ++ .reset :: es } := by rw [← hinputs]
    _ = step { s with inputs := .reset :: es } := step_halted_append _ hs hlost
    _ = .next { State.reset with inputs := es } := resetStepsInEveryState _ es rfl

/-! ### The outputs after reset -/

/-- Settles O4: the outputs are those of `regs?_reset`; the rest is the value of a field. -/
theorem resetOutputsAndFraming : Obligations.ResetOutputsAndFraming := by
  refine ⟨fun c hc => ?_, rfl, rfl, rfl, rfl, rfl, rfl⟩
  rw [State.output?, regs?_reset hc]
  rfl

end Sys2Proof.Proofs
end

section
/-! What an event can do to a voice, to the registers of a channel and to the framing, said once,
and the rules of the whole block that follow (spec/10_state.md sections 3 and 4, spec/42_midi.md). -/

namespace Sys2Proof.Proofs

open Sys2Proof.Machine

/-! ### Changes -/

/-- The event runs the tick (R120, R182). -/
abbrev IsTick (e : Event) : Prop := e = .tick ∨ carriesUpdateAll e = true

/-- The event is a `VOICE_ON` on voice `v` of channel `c`, or the last byte of a NOTE_ON for
channel `c` and the voice is voice 0 (R34). -/
def IsNoteStart (s : State) (e : Event) (c v : Nat) : Prop :=
  (∃ (w : CommandWord) (ch : Nibble) (vc : BitVec 2),
    e = .cmd w ∧ decodeCommand w = .voiceOn ch vc ∧ c = ch.toNat ∧ v = vc.toNat) ∨
  (∃ b, e = .midi b ∧ s.framing.mpState = .data ∧ s.framing.mpNeed ≠ 2 ∧
    s.framing.mpType = 0x9 ∧ c = midiChannel s.framing.mpSub ∧ v = 0)

/-- What the event `e`, taken in the state `s`, can make of voice `v` of channel `c`. -/
inductive VoiceChange (s : State) (e : Event) (c v : Nat) (V : Voice) : Voice → Prop
  | reset (he : e = .reset) : VoiceChange s e c v V Voice.reset
  | kept : VoiceChange s e c v V V
  | ticked (he : IsTick e) : VoiceChange s e c v V V.advance
  | started (he : IsNoteStart s e c v) {f : Voice → Voice} (hf : IsOperandWrite f) :
      VoiceChange s e c v V (f V.start)
  | stopped {f : Voice → Voice} (hf : IsOperandWrite f) : VoiceChange s e c v V (f V.stop)
  | written {f : Voice → Voice} (hf : IsOperandWrite f) : VoiceChange s e c v V (f V)

/-- What the event `e`, taken in the state `s`, can make of the registers of channel `c`. -/
inductive RegsChange (s : State) (e : Event) (c : Nat) (r : ChannelRegs) : ChannelRegs → Prop
  | reset (he : e = .reset) : RegsChange s e c r ChannelRegs.reset
  | kept : RegsChange s e c r r
  | written {f : ChannelRegs → ChannelRegs} (hf : IsRegsWrite c f) : RegsChange s e c r (f r)
  | driven (he : IsTick e) (hon : r.enable = true) {nv : Nat} (hnv : nv = Config.nv c)
      {C : Channel nv} (hC : HoldsChannel s c C) :
      RegsChange s e c r { r with outVal := BitVec.ofInt 10 C.level }

/-- What the event `e` can make of the framing `f` (R201, R206). -/
inductive FramingChange (e : Event) (f : Framing) : Framing → Prop
  | reset (he : e = .reset) : FramingChange e f Framing.reset
  | kept : FramingChange e f f
  | opened (b : MidiByte) (he : e = .midi b) (t sub : Nibble) (hcount : dataCount t sub ≠ 0) :
      FramingChange e f
        { f with mpState := .data, mpType := t, mpSub := sub, mpNeed := dataCount t sub }
  | held (b : MidiByte) (he : e = .midi b) (hdata : f.mpState = .data) (hneed : f.mpNeed = 2)
      (d : Data7) : FramingChange e f { f with mpD1 := d, mpNeed := 1 }
  | closed (b : MidiByte) (he : e = .midi b) :
      FramingChange e f { f with mpState := .idle, mpNeed := 0 }

theorem isOperandWrite_id : IsOperandWrite id := by
  constructor <;> intro V <;> rfl

/-- The two operand writes of a note (R208, R209). -/
theorem isOperandWrite_note (freq : BitVec 16) (vel : Data7) :
    IsOperandWrite fun V => (V.setFrequency freq).setVelocity vel := by
  constructor <;> intro V <;> rfl

/-- A word whose row is not `UPDATE_ALL` runs no tick. -/
theorem not_isTick_cmd {w : CommandWord} (h : decodeCommand w ≠ .updateAll) :
    ¬ IsTick (.cmd w) := by
  simp [IsTick, carriesUpdateAll, h]

theorem not_isTick_of_isNoteStart {s : State} {e : Event} {c v : Nat} (h : IsNoteStart s e c v) :
    ¬ IsTick e := by
  obtain ⟨w, ch, vc, rfl, hdec, -, -⟩ | ⟨b, rfl, -⟩ := h
  · exact not_isTick_cmd (by rw [hdec]; nofun)
  · simp [IsTick, carriesUpdateAll]

/-! ### The two kinds of event that run an instruction -/

/-- A command writes neither the framing nor the halt flag nor the events to come. -/
theorem command_frame (w : CommandWord) (s : State) :
    (effect (decodeCommand w) s).framing = s.framing ∧
      (effect (decodeCommand w) s).halted = s.halted ∧
      (effect (decodeCommand w) s).inputs = s.inputs := by
  obtain ⟨-, h⟩ | ⟨-, h | ⟨c, f, -, h⟩ | ⟨ch, vc, -, h⟩ | ⟨c, v, f, -, h⟩⟩ := command_cases w s
  all_goals simp [h]

/-- What a byte can do to channels and voices: nothing, or, as the last data byte, the dispatch of
its message. -/
theorem byte_views {b : MidiByte} {s t : State}
    (ht : effect (decodeMidi s.framing.mpState b) s = t) :
    (∀ c, t.regs? c = s.regs? c) ∧ t.halted = s.halted ∧ t.inputs = s.inputs ∧
      ((∀ c v, t.voice? c v = s.voice? c v) ∨
        (s.framing.mpState = .data ∧ s.framing.mpNeed ≠ 2 ∧ ∃ p, ∀ c v,
          t.voice? c v = (dispatch s.framing.mpType s.framing.mpSub p s).voice? c v)) := by
  obtain ⟨-, h⟩ | ⟨hdata, h⟩ := byte_cases b s
  · rw [h, openMessage_eq] at ht
    split at ht <;> subst ht
    all_goals exact ⟨fun _ => rfl, rfl, rfl, .inl fun _ _ => rfl⟩
  · rw [h] at ht
    subst ht
    obtain ⟨hregs, hhalted, hinputs, ⟨-, hv⟩ | ⟨hneed, hv⟩⟩ := takeData_views (maskData b) s
    · exact ⟨hregs, hhalted, hinputs, .inl hv⟩
    · exact ⟨hregs, hhalted, hinputs, .inr ⟨hdata, hneed, hv⟩⟩

/-! ### Voices -/

/-- The change of one voice `f` at a place, seen at any place. -/
theorem voice?_modifyVoice_cases {s : State} {c v c' v' : Nat} {f : Voice → Voice} {V U : Voice}
    (hV : s.voice? c v = some V) (hU : (s.modifyVoice c' v' f).voice? c v = some U) :
    U = V ∨ (c = c' ∧ v = v' ∧ U = f V) := by
  rw [voice?_modifyVoice, hV] at hU
  split at hU
  · next h => exact .inr ⟨h.1, h.2, (Option.some.inj hU).symm⟩
  · exact .inl (Option.some.inj hU).symm

theorem voiceChange_tick {s : State} {e : Event} {c v : Nat} {V U : Voice} (he : IsTick e)
    (hV : s.voice? c v = some V) (hU : (tick s).voice? c v = some U) :
    VoiceChange s e c v V U := by
  have hc : c < 7 := ((voice?_isSome s c v).1 (by rw [hV]; rfl)).1
  obtain ⟨r, hr⟩ := Option.isSome_iff_exists.1 ((regs?_isSome s c).2 hc)
  rw [voice?_tick s c v r hr, hV] at hU
  split at hU
  · obtain rfl := Option.some.inj hU
    exact .ticked he
  · obtain rfl := Option.some.inj hU
    exact .kept

theorem voiceChange_cmd {s : State} {w : CommandWord} {c v : Nat} {V U : Voice}
    (hV : s.voice? c v = some V) (hU : (effect (decodeCommand w) s).voice? c v = some U) :
    VoiceChange s (.cmd w) c v V U := by
  obtain ⟨hop, h⟩ | ⟨-, h | ⟨c', f, -, h⟩ | ⟨ch, vc, hon, h⟩ | ⟨c', v', f, hf, h⟩⟩ :=
    command_cases w s
  all_goals rw [h] at hU
  · exact voiceChange_tick (.inr (by simp [carriesUpdateAll, hop])) hV hU
  · obtain rfl := Option.some.inj (hV.symm.trans hU)
    exact .kept
  · rw [voice?_modifyRegs] at hU
    obtain rfl := Option.some.inj (hV.symm.trans hU)
    exact .kept
  · obtain rfl | ⟨hc, hv, rfl⟩ := voice?_modifyVoice_cases hV hU
    · exact .kept
    · exact .started (.inl ⟨w, ch, vc, rfl, hon, hc, hv⟩) isOperandWrite_id
  · obtain rfl | ⟨-, -, rfl⟩ := voice?_modifyVoice_cases hV hU
    · exact .kept
    · obtain rfl | hf := hf
      · exact .stopped isOperandWrite_id
      · exact .written hf

theorem voiceChange_midi {s : State} {b : MidiByte} {c v : Nat} {V U : Voice}
    (hV : s.voice? c v = some V)
    (hU : (effect (decodeMidi s.framing.mpState b) s).voice? c v = some U) :
    VoiceChange s (.midi b) c v V U := by
  obtain ⟨-, -, -, h | ⟨hdata, hneed, p, h⟩⟩ := byte_views (b := b) (s := s) rfl
  all_goals rw [h] at hU
  · obtain rfl := Option.some.inj (hV.symm.trans hU)
    exact .kept
  · obtain ⟨k, vel, -, -, hd⟩ | ⟨k, vel, htype, -, hd⟩ | ⟨d1, d2, -, -, hd⟩ | hd :=
      dispatch_cases s.framing.mpType s.framing.mpSub p s
    all_goals rw [hd] at hU
    · obtain rfl | ⟨-, -, rfl⟩ := voice?_modifyVoice_cases hV hU
      · exact .kept
      · exact .stopped (isOperandWrite_note _ vel)
    · obtain rfl | ⟨hc, hv, rfl⟩ := voice?_modifyVoice_cases hV hU
      · exact .kept
      · exact .started (.inr ⟨b, rfl, hdata, hneed, htype, hc, hv⟩) (isOperandWrite_note _ vel)
    · obtain rfl | ⟨-, -, rfl⟩ := voice?_modifyVoice_cases hV hU
      · exact .kept
      · exact .written (isOperandWrite_setPitchBend _)
    · obtain rfl := Option.some.inj (hV.symm.trans hU)
      exact .kept

/-- Every event changes every voice in one of these ways. -/
theorem takeEvent_voiceChange {s t : State} {e : Event} {c v : Nat} {V U : Voice}
    (h : takeEvent e s = .next t) (hV : s.voice? c v = some V) (hU : t.voice? c v = some U) :
    VoiceChange s e c v V U := by
  obtain ⟨rfl, rfl⟩ | ⟨-, ⟨rfl, rfl⟩ | ⟨w, rfl, rfl⟩ | ⟨b, rfl, rfl⟩ | ⟨rfl, rfl⟩⟩ :=
    takeEvent_cases h
  · obtain rfl := eq_reset_of_voice?_reset hU
    exact .reset rfl
  · exact voiceChange_tick (.inl rfl) hV hU
  · exact voiceChange_cmd hV hU
  · exact voiceChange_midi hV hU
  · obtain rfl := Option.some.inj (hV.symm.trans hU)
    exact .kept

/-- An envelope step stays in its stage or enters the next (R41). -/
theorem envelopeStep_adsrState (V : Voice) :
    V.envelopeStep.adsrState = V.adsrState ∨
      V.envelopeStep.adsrState = V.adsrState.following := by
  cases hV : V.adsrState with
  | attack => rw [envelopeStep_attack hV]; split <;> simp [hV, Adsr.following]
  | decay => rw [envelopeStep_decay hV]; split <;> simp [hV, Adsr.following]
  | sustain => rw [envelopeStep_sustain hV]; split <;> simp [hV, Adsr.following]
  | release => rw [envelopeStep_release hV]; split <;> simp [hV, Adsr.following]

/-- Settles O54, change by change: only the tick moves the envelope on (`envelopeStep_adsrState`),
only a note start and `RESET` set it to ATTACK, and those are no ticks. -/
theorem envelopeStateOnlyMovesForward : Obligations.EnvelopeStateOnlyMovesForward := by
  intro s t e c v V U h hV hU
  change if IsTick e then _ else _
  cases takeEvent_voiceChange h hV hU with
  | reset he =>
    rw [if_neg (by simp [he, IsTick, carriesUpdateAll])]
    exact .inr rfl
  | kept => split <;> exact .inl rfl
  | ticked he =>
    rw [if_pos he, advance_adsrState]
    exact envelopeStep_adsrState V
  | started he hf =>
    rw [if_neg (not_isTick_of_isNoteStart he), hf.adsrState]
    exact .inr rfl
  | stopped hf => split <;> exact .inl (hf.adsrState V.stop)
  | written hf => split <;> exact .inl (hf.adsrState V)

/-- Settles O55: of the changes of a voice only a note start sets the gate. -/
theorem onlyNoteStartsOpenAGate : Obligations.OnlyNoteStartsOpenAGate := by
  intro s t e c v V U h hV hU hclosed hopen
  cases takeEvent_voiceChange h hV hU with
  | started he _ => exact he
  | reset he => cases hopen
  | kept => exact absurd hopen (by simp [hclosed])
  | ticked he => exact absurd hopen (by simp [hclosed])
  | stopped hf => exact absurd hopen (by simp [hf.gate])
  | written hf => exact absurd hopen (by simp [hf.gate, hclosed])

/-! ### Channel registers -/

theorem regsChange_tick {s : State} {e : Event} {c : Nat} {r q : ChannelRegs} (he : IsTick e)
    (hr : s.regs? c = some r) (hq : (tick s).regs? c = some q) : RegsChange s e c r q := by
  obtain ⟨nv, hnv, C, rfl, before, after⟩ := tick_steps_channel hr
  obtain rfl := Option.some.inj (after.regs.symm.trans hq)
  rw [step_regs]
  split
  · next hon => exact .driven he hon hnv before
  · exact .kept

theorem regsChange_cmd {s : State} {w : CommandWord} {c : Nat} {r q : ChannelRegs}
    (hr : s.regs? c = some r) (hq : (effect (decodeCommand w) s).regs? c = some q) :
    RegsChange s (.cmd w) c r q := by
  obtain ⟨hop, h⟩ | ⟨-, h | ⟨c', f, hf, h⟩ | ⟨ch, vc, hon, h⟩ | ⟨c', v', f, hf, h⟩⟩ :=
    command_cases w s
  all_goals rw [h] at hq
  · exact regsChange_tick (.inr (by simp [carriesUpdateAll, hop])) hr hq
  · obtain rfl := Option.some.inj (hr.symm.trans hq)
    exact .kept
  · rw [regs?_modifyRegs, hr] at hq
    split at hq
    · next hc =>
      subst hc
      obtain rfl := Option.some.inj hq
      exact .written hf
    · obtain rfl := Option.some.inj hq
      exact .kept
  all_goals
    rw [regs?_modifyVoice] at hq
    obtain rfl := Option.some.inj (hr.symm.trans hq)
    exact .kept

/-- Every event changes the registers of every channel in one of these ways. -/
theorem takeEvent_regsChange {s t : State} {e : Event} {c : Nat} {r q : ChannelRegs}
    (h : takeEvent e s = .next t) (hr : s.regs? c = some r) (hq : t.regs? c = some q) :
    RegsChange s e c r q := by
  obtain ⟨rfl, rfl⟩ | ⟨-, ⟨rfl, rfl⟩ | ⟨w, rfl, rfl⟩ | ⟨b, rfl, rfl⟩ | ⟨rfl, rfl⟩⟩ :=
    takeEvent_cases h
  · have hc : c < 7 := (regs?_isSome s c).1 (by rw [hr]; rfl)
    obtain rfl := Option.some.inj ((regs?_reset hc).symm.trans hq)
    exact .reset rfl
  · exact regsChange_tick (.inl rfl) hr hq
  · exact regsChange_cmd hr hq
  · obtain ⟨hregs, -⟩ := byte_views (b := b) (s := s) rfl
    rw [hregs] at hq
    obtain rfl := Option.some.inj (hr.symm.trans hq)
    exact .kept
  · obtain rfl := Option.some.inj (hr.symm.trans hq)
    exact .kept

/-- Settles O56: of the changes of a channel's registers only the tick's, on an enabled channel,
writes the output; a command keeps it (`IsRegsWrite.outVal`). -/
theorem outputIsWrittenOnlyByTheTick : Obligations.OutputIsWrittenOnlyByTheTick := by
  intro s t e c r q h hr hq hreset hidle
  cases takeEvent_regsChange h hr hq with
  | reset he => exact absurd he hreset
  | kept => rfl
  | written hf => exact hf.outVal r
  | driven he hon _ _ =>
    obtain hoff | ⟨htick, hupdate⟩ := hidle
    · exact absurd (hoff.symm.trans hon) nofun
    · obtain he | he := he
      · exact absurd he htick
      · exact absurd (hupdate.symm.trans he) nofun

/-- Settles O58: a byte keeps every register, and what it may dispatch is a change of voice 0
(`dispatch_modifies`). -/
theorem midiBytesWriteOnlyVoiceZero : Obligations.MidiBytesWriteOnlyVoiceZero := by
  intro s t b h
  have ht : t = effect (decodeMidi s.framing.mpState b) s := by
    rw [takeEvent, exec_eq] at h
    exact (whenRunning_next h).2
  subst ht
  obtain ⟨hregs, -, -, hvoices⟩ := byte_views (b := b) (s := s) rfl
  refine ⟨hregs, fun c v hv => ?_⟩
  obtain hkept | ⟨-, -, p, hdispatch⟩ := hvoices
  · exact hkept c v
  · obtain ⟨f, hf⟩ := dispatch_modifies s.framing.mpType s.framing.mpSub p s
    rw [hdispatch, hf, voice?_modifyVoice, if_neg fun hplace => hv hplace.2]

/-! ### The framing -/

/-- Every event changes the framing in one of these ways. -/
theorem takeEvent_framingChange {s t : State} {e : Event} (h : takeEvent e s = .next t) :
    FramingChange e s.framing t.framing := by
  obtain ⟨rfl, rfl⟩ | ⟨-, ⟨rfl, rfl⟩ | ⟨w, rfl, rfl⟩ | ⟨b, rfl, rfl⟩ | ⟨rfl, rfl⟩⟩ :=
    takeEvent_cases h
  · exact .reset rfl
  · exact .kept
  · rw [(command_frame w s).1]
    exact .kept
  · obtain ⟨-, hb⟩ | ⟨hdata, hb⟩ := byte_cases b s
    all_goals rw [hb]
    · rw [openMessage_eq]
      split
      · exact .kept
      · next hcount => exact .opened b rfl _ _ hcount
    · by_cases hneed : s.framing.mpNeed = 2
      · rw [takeData_first _ s hneed]
        exact .held b rfl hdata hneed _
      · rw [takeData_last _ s hneed, closeMessage_framing, dispatch_framing]
        exact .closed b rfl
  · exact .kept

/-- Settles O57: of the changes of the framing all but `RESET`'s are made by a byte. -/
theorem onlyMidiBytesTouchTheFraming : Obligations.OnlyMidiBytesTouchTheFraming := by
  intro s t e h hreset hmidi
  generalize hf : t.framing = f
  have hchange := takeEvent_framingChange h
  rw [hf] at hchange
  cases hchange with
  | reset he => exact absurd he hreset
  | kept => rfl
  | opened b he _ _ _ => exact absurd he (hmidi b)
  | held b he _ _ _ => exact absurd he (hmidi b)
  | closed b he => exact absurd he (hmidi b)

/-! ### Runs -/

/-- To a running block every event but `RX_OVERFLOW` has a step, after which it still runs, with the
same events to come. -/
theorem takeEvent_keepsRunning {s : State} {e : Event} (hs : s.halted = false)
    (he : e ≠ .rxOverflow) :
    ∃ t, takeEvent e s = .next t ∧ t.halted = false ∧ t.inputs = s.inputs := by
  cases e with
  | rxOverflow => exact absurd rfl he
  | reset => exact ⟨_, rfl, rfl, rfl⟩
  | tick => exact ⟨_, whenRunning_running tick s hs, hs, rfl⟩
  | cmd w =>
    obtain ⟨-, hhalted, hinputs⟩ := command_frame w s
    exact ⟨_, exec_running _ s hs, hhalted.trans hs, hinputs⟩
  | midi b =>
    obtain ⟨-, hhalted, hinputs, -⟩ := byte_views (b := b) (s := s) rfl
    exact ⟨_, exec_running _ s hs, hhalted.trans hs, hinputs⟩

/-- The invariant of a run without overflow: the block runs and none is to come. -/
theorem step_keepsRunning {s : State} (hs : s.halted = false) (hnone : .rxOverflow ∉ s.inputs) :
    ∃ t, step s = .next t ∧ t.halted = false ∧ .rxOverflow ∉ t.inputs := by
  cases hinputs : s.inputs with
  | nil => exact ⟨s, blockHoldsItsStateBetweenEvents s hs hinputs, hs, hnone⟩
  | cons e es =>
    rw [hinputs, List.mem_cons, not_or] at hnone
    obtain ⟨he, hes⟩ := hnone
    obtain ⟨t, ht, hhalted, hrest⟩ :=
      takeEvent_keepsRunning (s := { s with inputs := es }) hs (Ne.symm he)
    exact ⟨t, (step_running hs hinputs).trans ht, hhalted, by rwa [hrest]⟩

/-- Settles O60, by induction on the length of the run with the invariant of `step_keepsRunning`. -/
theorem runWithoutOverflowNeverStops : Obligations.RunWithoutOverflowNeverStops := by
  intro k
  induction k with
  | zero => exact fun s hs _ => ⟨s, run_zero s, hs⟩
  | succ k ih =>
    intro s hs hnone
    obtain ⟨t, hstep, ht, hnone'⟩ := step_keepsRunning hs hnone
    rw [run_succ k hstep]
    exact ih t ht hnone'

end Sys2Proof.Proofs
end

section
/-! The invariant of the block (spec/10_state.md sections 2 to 5): it holds at reset, every step
keeps it, and within it no output is truncated (spec/40_synthesis.md sections 2 and 6). -/

namespace Sys2Proof.Proofs

open Sys2Proof.Machine

/-! ### A voice -/

/-- The invariant of a voice reads the envelope and the gate only. -/
theorem voiceInv_of_eq {V U : Voice} (hV : V.Inv) (hcount : U.envCount = V.envCount)
    (henv : U.env = V.env) (hstart : U.envStart = V.envStart) (hstage : U.adsrState = V.adsrState)
    (hgate : U.gate = V.gate) : U.Inv where
  envCount_le := hcount ▸ hV.envCount_le
  env_nonneg := henv ▸ hV.env_nonneg
  env_le := henv ▸ hV.env_le
  envStart_nonneg := hstart ▸ hV.envStart_nonneg
  envStart_le := hstart ▸ hV.envStart_le
  release_gate := hstage ▸ hgate ▸ hV.release_gate
  sustain_start := hstage ▸ hstart ▸ hV.sustain_start
  release_start := hstage ▸ hstart ▸ hV.release_start

theorem voiceInv_reset : Voice.reset.Inv := by
  constructor <;> decide

theorem voiceInv_operandWrite {f : Voice → Voice} (hf : IsOperandWrite f) {V : Voice}
    (hV : V.Inv) : (f V).Inv :=
  voiceInv_of_eq hV (hf.envCount V) (hf.env V) (hf.envStart V) (hf.adsrState V) (hf.gate V)

/-- `VOICE_ON` enters ATTACK, of which the invariant asks nothing but the ranges. -/
theorem voiceInv_start {V : Voice} (hV : V.Inv) : V.start.Inv :=
  { hV with
    envCount_le := Nat.zero_le _
    release_gate := nofun
    sustain_start := nofun
    release_start := nofun }

theorem voiceInv_stop {V : Voice} (hV : V.Inv) : V.stop.Inv :=
  { hV with release_gate := fun _ => rfl }

/-- A stage that is entered at an exhausted counter is DECAY, ATTACK, or SUSTAIN at its level. -/
theorem voiceInv_enterStage {V : Voice} (hV : V.Inv) {next : Adsr} {target : Int}
    (h0 : 0 ≤ target) (h1 : target ≤ 1015) (hrelease : next ≠ .release)
    (hsustain : next = .sustain → target = 512) : (V.enterStage next target).Inv where
  envCount_le := Nat.zero_le _
  env_nonneg := hV.env_nonneg
  env_le := hV.env_le
  envStart_nonneg := h0
  envStart_le := h1
  release_gate h := absurd h hrelease
  sustain_start := hsustain
  release_start h := absurd h hrelease

/-- A tick inside a stage keeps the stage, and the counter it stores is not exhausted. -/
theorem voiceInv_stayInStage {V : Voice} (hV : V.Inv) {env : Int} (h0 : 0 ≤ env) (h1 : env ≤ 1022)
    (hn : ¬ 16383 < V.nextEnvCount) : (V.stayInStage env).Inv :=
  { hV with
    envCount_le := by rw [stayInStage_envCount_toNat V env hn]; omega
    env_nonneg := h0
    env_le := h1 }

/-- The envelope step keeps the invariant, stage by stage (R125 to R130). -/
theorem voiceInv_envelopeStep {V : Voice} (hV : V.Inv) : V.envelopeStep.Inv := by
  cases hstage : V.adsrState with
  | attack =>
    rw [envelopeStep_attack hstage]
    obtain ⟨htarget0, htarget1⟩ := attackTarget_range V.velocity
    obtain ⟨henv0, henv1⟩ := attackEnv_range V.velocity V.nextEnvCount
    split
    · exact voiceInv_enterStage hV (by omega) htarget1 nofun nofun
    · next hn => exact voiceInv_stayInStage hV (by omega) henv1 hn
  | decay =>
    rw [envelopeStep_decay hstage]
    obtain ⟨henv0, henv1⟩ := decayEnv_range (start := V.envStart) (target := 512) V.nextEnvCount
      hV.envStart_nonneg hV.envStart_le (by decide) (by decide)
    split
    · exact voiceInv_enterStage hV (by decide) (by decide) nofun fun _ => rfl
    · next hn => exact voiceInv_stayInStage hV henv0 (by omega) hn
  | sustain =>
    rw [envelopeStep_sustain hstage]
    split
    · exact hV
    · next hgate =>
      exact
        { hV with
          envCount_le := Nat.zero_le _
          release_gate := fun _ => by simpa using hgate
          sustain_start := nofun
          release_start := fun _ => hV.sustain_start hstage }
  | release =>
    rw [envelopeStep_release hstage]
    obtain ⟨henv0, henv1⟩ := decayEnv_range (start := V.envStart) (target := 0) V.nextEnvCount
      hV.envStart_nonneg hV.envStart_le (by decide) (by decide)
    split
    · exact voiceInv_enterStage hV (by decide) (by decide) nofun nofun
    · next hn => exact voiceInv_stayInStage hV henv0 (by omega) hn

/-- LFO and phase are no part of the invariant. -/
theorem voiceInv_advance {V : Voice} (hV : V.Inv) : V.advance.Inv :=
  voiceInv_of_eq (voiceInv_envelopeStep hV) (advance_envCount V) (advance_env V)
    (advance_envStart V) (advance_adsrState V) (by rw [advance_gate, envelopeStep_gate])

theorem voiceInv_of_voiceChange {s : State} {e : Event} {c v : Nat} {V U : Voice} (hV : V.Inv)
    (h : VoiceChange s e c v V U) : U.Inv := by
  cases h with
  | reset he => exact voiceInv_reset
  | kept => exact hV
  | ticked he => exact voiceInv_advance hV
  | started he hf => exact voiceInv_operandWrite hf (voiceInv_start hV)
  | stopped hf => exact voiceInv_operandWrite hf (voiceInv_stop hV)
  | written hf => exact voiceInv_operandWrite hf hV

/-- Settles O53: in RELEASE the gate is clear, so the voice is silent. -/
theorem releasedVoiceIsSilent : Obligations.ReleasedVoiceIsSilent := by
  intro s c v V w hs hV hstage
  have hgate : V.gate = false := (hs.voices c v V hV).release_gate hstage
  exact voiceOutput_silent w V.advance ((silent_iff V).2 ⟨hgate, by rw [hstage]; nofun⟩)

/-! ### The level of a channel -/

/-- The sum of the voices of a channel lies between 0 and `nv` times the largest output. -/
theorem sum_voiceOutputs_range {nv : Nat} {C : Channel nv}
    (hvoices : ∀ (v : Nat) (V : Voice), C.voices[v]? = some V → V.Inv) :
    0 ≤ (voiceOutputs C).sum ∧ (voiceOutputs C).sum ≤ nv * 1021 := by
  have hrange : ∀ x ∈ voiceOutputs C, 0 ≤ x ∧ x ≤ 1021 := by
    intro x hx
    obtain ⟨v, hv⟩ := List.mem_iff_getElem?.1 hx
    rw [getElem?_voiceOutputs] at hv
    obtain ⟨V, hV, rfl⟩ := Option.map_eq_some_iff.1 hv
    have hafter := voiceInv_advance (hvoices v V hV)
    exact voiceOutput_range C.waveform V V.advance hafter.env_nonneg hafter.env_le
  refine ⟨List.sum_nonneg fun x hx => (hrange x hx).1, ?_⟩
  have hsum := List.sum_le_card_nsmul (voiceOutputs C) 1021 fun x hx => (hrange x hx).2
  rwa [length_voiceOutputs, nsmul_eq_mul] at hsum

/-- Settles O52: the average of outputs of at most 1021, scaled by at most 127 / 128, is at most
1013, which fits in 10 bits. -/
theorem outputNeverTruncates : Obligations.OutputNeverTruncates := by
  intro nv C hnv hvoices
  obtain ⟨hsum0, hsum1⟩ := sum_voiceOutputs_range hvoices
  have hpos : (0 : Int) < nv := by omega
  have havg0 : 0 ≤ (voiceOutputs C).sum / nv := Int.ediv_nonneg hsum0 hpos.le
  have havg1 : (voiceOutputs C).sum / nv ≤ 1021 :=
    Int.ediv_le_of_le_mul hpos (by rwa [Int.mul_comm])
  have hvolume : (C.volume.toNat : Int) ≤ 127 := by have := C.volume.isLt; omega
  obtain ⟨hscaled0, hscaled1⟩ :=
    mul_bounds havg0 havg1 (b := (C.volume.toNat : Int)) (by omega) hvolume
  have hlevel0 : 0 ≤ C.level := by rw [level_eq]; omega
  have hlevel1 : C.level ≤ 1013 := by rw [level_eq]; omega
  refine ⟨hlevel0, hlevel1, ?_⟩
  rw [BitVec.toNat_ofInt]
  omega

/-! ### The registers of a channel and the framing -/

theorem regsInv_reset (c : Nat) : ChannelRegs.reset.Inv c :=
  ⟨rfl, nofun, by decide⟩

theorem regsInv_write {c : Nat} {f : ChannelRegs → ChannelRegs} (hf : IsRegsWrite c f)
    {r : ChannelRegs} (hr : r.Inv c) : (f r).Inv c where
  outEn_eq := hf.outEn r hr.outEn_eq
  waveform_legal hc := hf.waveform r hc (hr.waveform_legal hc)
  outVal_le := (hf.outVal r).symm ▸ hr.outVal_le

/-- What a tick drives fits (`outputNeverTruncates`), since the voices it mixes meet their
invariant. -/
theorem regsInv_of_regsChange {s : State} (hs : s.Inv) {e : Event} {c : Nat} {r q : ChannelRegs}
    (hr : r.Inv c) (h : RegsChange s e c r q) : q.Inv c := by
  cases h with
  | reset he => exact regsInv_reset c
  | kept => exact hr
  | written hf => exact regsInv_write hf hr
  | @driven he hon nv hnv C hC =>
    have hpos : 1 ≤ nv := by rw [hnv, nv_eq]; split <;> decide
    obtain ⟨-, hlevel, hstored⟩ := outputNeverTruncates nv C hpos fun v V hV =>
      hs.voices c v V ((hC.voice v).trans hV)
    exact { hr with outVal_le := by show (BitVec.ofInt 10 C.level).toNat ≤ 1013; omega }

theorem framingInv_reset : Framing.reset.Inv :=
  ⟨fun _ => rfl, nofun⟩

/-- A message is opened only with data bytes to come, and between two bytes fewer are expected than
the status byte asked for. -/
theorem framingInv_of_framingChange {e : Event} {f g : Framing} (hf : f.Inv)
    (h : FramingChange e f g) : g.Inv := by
  cases h with
  | reset he => exact framingInv_reset
  | kept => exact hf
  | opened b he t sub hcount =>
    exact ⟨nofun, fun _ => ⟨Fin.pos_iff_ne_zero.2 hcount, le_rfl⟩⟩
  | held b he hdata hneed d =>
    have hcount := (hf.data_need hdata).2
    rw [hneed] at hcount
    refine ⟨fun hidle => ?_, fun _ => ⟨le_rfl, le_trans (show (1 : Fin 3) ≤ 2 by decide) hcount⟩⟩
    exact absurd (hidle.symm.trans hdata) nofun
  | closed b he => exact ⟨fun _ => rfl, nofun⟩

/-! ### The block -/

/-- Settles O50: reset leaves every channel, every voice and the framing in the invariant. -/
theorem resetMeetsTheInvariant : Obligations.ResetMeetsTheInvariant where
  regs c r hr := by
    have hc : c < 7 := (regs?_isSome State.reset c).1 (by rw [hr]; rfl)
    obtain rfl := Option.some.inj ((regs?_reset hc).symm.trans hr)
    exact regsInv_reset c
  voices c v V hV := eq_reset_of_voice?_reset hV ▸ voiceInv_reset
  framing := framingInv_reset

/-- An event finds the channels and voices it leaves, so each is a change of one that was there. -/
theorem takeEvent_keeps_inv {s t : State} {e : Event} (hs : s.Inv) (h : takeEvent e s = .next t) :
    t.Inv where
  regs c q hq := by
    have hc : c < 7 := (regs?_isSome t c).1 (by rw [hq]; rfl)
    obtain ⟨r, hr⟩ := Option.isSome_iff_exists.1 ((regs?_isSome s c).2 hc)
    exact regsInv_of_regsChange hs (hs.regs c r hr) (takeEvent_regsChange h hr hq)
  voices c v U hU := by
    have hplace := (voice?_isSome t c v).1 (by rw [hU]; rfl)
    obtain ⟨V, hV⟩ := Option.isSome_iff_exists.1 ((voice?_isSome s c v).2 hplace)
    exact voiceInv_of_voiceChange (hs.voices c v V hV) (takeEvent_voiceChange h hV hU)
  framing := framingInv_of_framingChange hs.framing (takeEvent_framingChange h)

/-- A step that answers a next state took an event, or had none and changed nothing. -/
theorem step_cases {s t : State} (h : step s = .next t) :
    t = s ∨ ∃ e es, takeEvent e { s with inputs := es } = .next t := by
  obtain hs | hs := Bool.eq_false_or_eq_true s.halted
  · simp only [step, nextStep, hs, if_true, haltedStep] at h
    split at h
    · next es _ => exact .inr ⟨.reset, es, h⟩
    · cases h
  · cases hinputs : s.inputs with
    | nil =>
      rw [blockHoldsItsStateBetweenEvents s hs hinputs] at h
      cases h
      exact .inl rfl
    | cons e es => exact .inr ⟨e, es, (step_running hs hinputs).symm.trans h⟩

/-- The invariant does not read the events to come. -/
theorem inv_withInputs {s : State} (es : List Event) (hs : s.Inv) :
    State.Inv { s with inputs := es } :=
  ⟨hs.regs, hs.voices, hs.framing⟩

/-- Settles O51: a step takes at most one event (`step_cases`), and every event keeps the invariant
(`takeEvent_keeps_inv`). -/
theorem everyStepKeepsTheInvariant : Obligations.EveryStepKeepsTheInvariant := by
  intro s t hs h
  obtain rfl | ⟨e, es, htaken⟩ := step_cases h
  · exact hs
  · exact takeEvent_keeps_inv (inv_withInputs es hs) htaken

end Sys2Proof.Proofs
end

section
/-! Channels are independent (spec/40_synthesis.md section 1): every operation of an event takes two
states that agree on a channel to two that agree on it. -/

namespace Sys2Proof.Proofs

open Sys2Proof.Machine

/-! ### Operations on one channel -/

section Agree

variable {c : Nat} {s₁ s₂ : State}

theorem agree_modifyRegs (h : AgreeOnChannel c s₁ s₂) (c' : Nat) (f : ChannelRegs → ChannelRegs) :
    AgreeOnChannel c (s₁.modifyRegs c' f) (s₂.modifyRegs c' f) where
  regs := by rw [regs?_modifyRegs, regs?_modifyRegs, h.regs]
  voices v := by rw [voice?_modifyRegs, voice?_modifyRegs, h.voices]

theorem agree_modifyVoice (h : AgreeOnChannel c s₁ s₂) (c' v' : Nat) (f : Voice → Voice) :
    AgreeOnChannel c (s₁.modifyVoice c' v' f) (s₂.modifyVoice c' v' f) where
  regs := by rw [regs?_modifyVoice, regs?_modifyVoice, h.regs]
  voices v := by rw [voice?_modifyVoice, voice?_modifyVoice, h.voices]

theorem agree_onChannel (h : AgreeOnChannel c s₁ s₂) (ch : Nibble)
    (f : ChannelRegs → ChannelRegs) : AgreeOnChannel c (onChannel ch f s₁) (onChannel ch f s₂) := by
  unfold onChannel
  split
  · exact agree_modifyRegs h _ f
  · exact h

theorem agree_onVoice (h : AgreeOnChannel c s₁ s₂) (ch : Nibble) (vc : BitVec 2)
    (f : Voice → Voice) : AgreeOnChannel c (onVoice ch vc f s₁) (onVoice ch vc f s₂) := by
  unfold onVoice
  split
  · exact agree_modifyVoice h _ _ f
  · exact h

theorem agree_selectWaveform (h : AgreeOnChannel c s₁ s₂) (ch : Nibble) (code : BitVec 16) :
    AgreeOnChannel c (selectWaveform ch code s₁) (selectWaveform ch code s₂) := by
  unfold selectWaveform
  split
  · exact h
  · split
    · exact agree_onChannel h ch _
    · exact h

theorem agree_dispatch (h : AgreeOnChannel c s₁ s₂) (t sub : Nibble) (p : Payload) :
    AgreeOnChannel c (dispatch t sub p s₁) (dispatch t sub p s₂) := by
  unfold dispatch
  split
  · exact agree_modifyVoice h _ _ _
  · exact agree_modifyVoice h _ _ _
  · exact agree_modifyVoice h _ _ _
  · exact h

/-! ### The tick -/

/-- There is no channel 7 (R22). -/
theorem agree_of_no_channel (hc : ¬ c < 7) (s₁ s₂ : State) : AgreeOnChannel c s₁ s₂ := by
  have hregs : ∀ s : State, s.regs? c = none := fun s =>
    Option.not_isSome_iff_eq_none.1 fun h => hc ((regs?_isSome s c).1 h)
  have hvoice : ∀ (s : State) (v : Nat), s.voice? c v = none := fun s v =>
    Option.not_isSome_iff_eq_none.1 fun h => hc ((voice?_isSome s c v).1 h).1
  exact ⟨(hregs s₁).trans (hregs s₂).symm, fun v => (hvoice s₁ v).trans (hvoice s₂ v).symm⟩

/-- The views of a channel show all of it. -/
theorem holdsChannel_unique {nv : Nat} {C₁ C₂ : Channel nv} (h : AgreeOnChannel c s₁ s₂)
    (h₁ : HoldsChannel s₁ c C₁) (h₂ : HoldsChannel s₂ c C₂) : C₁ = C₂ := by
  have hregs : C₁.toChannelRegs = C₂.toChannelRegs :=
    Option.some.inj (h₁.regs.symm.trans (h.regs.trans h₂.regs))
  have hvoices : C₁.voices = C₂.voices := by
    ext1 v hv
    have hview : C₁.voices[v]? = C₂.voices[v]? :=
      (h₁.voice v).symm.trans ((h.voices v).trans (h₂.voice v))
    simpa [hv] using hview
  cases C₁
  cases C₂
  congr

/-- R122: the step of a channel is a function of that channel alone. -/
theorem agree_tick (h : AgreeOnChannel c s₁ s₂) : AgreeOnChannel c (tick s₁) (tick s₂) := by
  by_cases hc : c < 7
  · obtain ⟨r, hr⟩ := Option.isSome_iff_exists.1 ((regs?_isSome s₁ c).2 hc)
    obtain ⟨_, rfl, C₁, -, before₁, after₁⟩ := tick_steps_channel hr
    obtain ⟨_, rfl, C₂, -, before₂, after₂⟩ := tick_steps_channel (h.regs.symm.trans hr)
    obtain rfl := holdsChannel_unique h before₁ before₂
    exact ⟨after₁.regs.trans after₂.regs.symm,
      fun v => (after₁.voice v).trans (after₂.voice v).symm⟩
  · exact agree_of_no_channel hc _ _

/-! ### Events -/

theorem agree_command (h : AgreeOnChannel c s₁ s₂) (w : CommandWord) :
    AgreeOnChannel c (effect (decodeCommand w) s₁) (effect (decodeCommand w) s₂) := by
  apply decodeCommand_cases w (P := fun i => AgreeOnChannel c (effect i s₁) (effect i s₂))
  case nop => exact h
  case enable => exact fun ch => agree_onChannel h ch _
  case disable => exact fun ch => agree_onChannel h ch _
  case setWaveform => exact fun ch code => agree_selectWaveform h ch code
  case setVolume => exact fun ch _ => agree_onChannel h ch _
  case voiceOn => exact fun ch vc => agree_onVoice h ch vc _
  case voiceOff => exact fun ch vc => agree_onVoice h ch vc _
  case voiceFrequency => exact fun ch vc _ => agree_onVoice h ch vc _
  case voiceModulation => exact fun ch vc _ => agree_onVoice h ch vc _
  case voiceVelocity => exact fun ch vc _ => agree_onVoice h ch vc _
  case voicePitchBend => exact fun ch vc _ => agree_onVoice h ch vc _
  case updateAll => exact agree_tick h
  case reservedCF => exact fun _ => h

theorem agree_openMessage (h : AgreeOnChannel c s₁ s₂) (hf : s₁.framing = s₂.framing)
    (t sub : Nibble) :
    AgreeOnChannel c (openMessage t sub s₁) (openMessage t sub s₂) ∧
      (openMessage t sub s₁).framing = (openMessage t sub s₂).framing := by
  rw [openMessage_eq, openMessage_eq, hf]
  split
  · exact ⟨h, hf⟩
  · exact ⟨⟨h.regs, h.voices⟩, rfl⟩

theorem agree_closeMessage (h : AgreeOnChannel c s₁ s₂) :
    AgreeOnChannel c (closeMessage s₁) (closeMessage s₂) :=
  ⟨h.regs, h.voices⟩

theorem agree_takeData (h : AgreeOnChannel c s₁ s₂) (hf : s₁.framing = s₂.framing) (d : Data7) :
    AgreeOnChannel c (takeData d s₁) (takeData d s₂) ∧
      (takeData d s₁).framing = (takeData d s₂).framing := by
  by_cases hneed : s₂.framing.mpNeed = 2
  · rw [takeData_first d s₁ (by rw [hf, hneed]), takeData_first d s₂ hneed, hf]
    exact ⟨⟨h.regs, h.voices⟩, rfl⟩
  · rw [takeData_last d s₁ (by rwa [hf]), takeData_last d s₂ hneed, hf]
    refine ⟨agree_closeMessage (agree_dispatch h _ _ _), ?_⟩
    rw [closeMessage_framing, closeMessage_framing, dispatch_framing, dispatch_framing, hf]

/-- Two states in the same framing state read a byte as the same kind of byte (R200). -/
theorem agree_byte (h : AgreeOnChannel c s₁ s₂) (hf : s₁.framing = s₂.framing) (b : MidiByte) :
    AgreeOnChannel c (effect (decodeMidi s₁.framing.mpState b) s₁)
        (effect (decodeMidi s₂.framing.mpState b) s₂) ∧
      (effect (decodeMidi s₁.framing.mpState b) s₁).framing =
        (effect (decodeMidi s₂.framing.mpState b) s₂).framing := by
  obtain ⟨hidle, h₂⟩ | ⟨hdata, h₂⟩ := byte_cases b s₂
  · obtain ⟨-, h₁⟩ | ⟨hother, -⟩ := byte_cases b s₁
    · rw [h₁, h₂]
      exact agree_openMessage h hf _ _
    · rw [hf, hidle] at hother
      cases hother
  · obtain ⟨hother, -⟩ | ⟨-, h₁⟩ := byte_cases b s₁
    · rw [hf, hdata] at hother
      cases hother
    · rw [h₁, h₂]
      exact agree_takeData h hf _

end Agree

/-- What an event does when it has a step. -/
def eventEffect : Event → State → State
  | .reset, s => resetBlock s
  | .tick, s => tick s
  | .cmd w, s => effect (decodeCommand w) s
  | .midi b, s => effect (decodeMidi s.framing.mpState b) s
  | .rxOverflow, s => haltBlock s

theorem takeEvent_eq_eventEffect {e : Event} {s t : State} (h : takeEvent e s = .next t) :
    t = eventEffect e s := by
  obtain ⟨rfl, rfl⟩ | ⟨-, ⟨rfl, rfl⟩ | ⟨w, rfl, rfl⟩ | ⟨b, rfl, rfl⟩ | ⟨rfl, rfl⟩⟩ :=
    takeEvent_cases h
  all_goals rfl

/-- Settles O59, event by event: both states make the change of the same event, and every such
change reads of the block only the channel and the framing. -/
theorem channelsAreIndependent : Obligations.ChannelsAreIndependent := by
  intro s₁ s₂ t₁ t₂ e c h hf h₁ h₂
  rw [takeEvent_eq_eventEffect h₁, takeEvent_eq_eventEffect h₂]
  cases e with
  | reset => exact ⟨⟨rfl, fun _ => rfl⟩, rfl⟩
  | tick => exact ⟨agree_tick h, hf⟩
  | cmd w =>
    refine ⟨agree_command h w, ?_⟩
    rw [eventEffect, eventEffect, (command_frame w s₁).1, (command_frame w s₂).1, hf]
  | midi b => exact agree_byte h hf b
  | rxOverflow => exact ⟨⟨h.regs, h.voices⟩, hf⟩

end Sys2Proof.Proofs
end

section
/-! The oscillator of a voice, and a voice over many ticks (spec/40_synthesis.md sections 2, 3
and 7). -/

namespace Sys2Proof.Proofs

open Sys2Proof.Machine

/-! ### One tick of the oscillator -/

/-- Settles O35: a number below 16384 shifted right by 4 is below 1024, the size of a table. -/
theorem tableIndexIsTheShiftedCounter : Obligations.TableIndexIsTheShiftedCounter := by
  intro n hn
  rw [tableIndex_toNat]
  omega

/-- R137: the phase is the exact sum modulo 16384. -/
theorem phaseStep_count_toNat (V : Voice) :
    (V.phaseStep.count.toNat : Int) = (V.count.toNat + V.phaseIncrement) % 16384 := by
  rw [Voice.phaseStep_count, BitVec.toNat_ofInt]
  omega

/-- R135: the LFO phase moves only while the depth is not 0. -/
theorem advance_modCount_toNat (V : Voice) :
    V.advance.modCount.toNat =
      if V.mod = 0 then V.modCount.toNat else (V.modCount.toNat + 1) % 1024 := by
  rw [Voice.advance, Voice.phaseStep_modCount, Voice.modStep_modCount, envelopeStep_mod,
    envelopeStep_modCount]
  split
  · rfl
  · rw [BitVec.toNat_ofNat]
    rfl

/-- Settles O33: the envelope leaves what the oscillator reads, the LFO phase advances before the
modulation reads it (R136), and the phase takes the sum (`phaseStep_count_toNat`). -/
theorem oscillatorStepOfAVoice : Obligations.OscillatorStepOfAVoice := by
  intro w V V' freq db dm
  have hincrement : V.envelopeStep.modStep.phaseIncrement = freq + db + dm := by
    simp only [Voice.phaseIncrement, Voice.bendDelta, Voice.modDelta, Voice.modStep_frequency,
      Voice.modStep_pitchBend, Voice.modStep_mod, envelopeStep_frequency, envelopeStep_pitchBend,
      envelopeStep_mod]
    rfl
  have hcount := phaseStep_count_toNat V.envelopeStep.modStep
  rw [hincrement, Voice.modStep_count, envelopeStep_count] at hcount
  exact ⟨advance_modCount_toNat V, hcount, advance_frequency V, advance_pitchBend V, advance_mod V,
    advance_gate V, advance_velocity V⟩

/-! ### The phase over many ticks -/

/-- With neutral bend and no modulation the phase advances by the frequency. -/
theorem advance_count_neutral {V : Voice} (hbend : V.pitchBend = 8192) (hmod : V.mod = 0) :
    V.advance.count.toNat = (V.count.toNat + V.frequency.toNat) % 16384 := by
  obtain ⟨-, hcount, -⟩ := oscillatorStepOfAVoice .sine V
  have hneutral : V.pitchBend.toNat = 8192 := by rw [hbend]; rfl
  rw [if_pos hneutral, if_pos hmod, add_zero, add_zero, voiceStep_fst] at hcount
  omega

/-- Settles O37, by induction on the number of ticks, each of which adds the frequency. -/
theorem phaseWrapsModuloMaskPlusOne : Obligations.PhaseWrapsModuloMaskPlusOne := by
  intro w V n hbend hmod
  change (Voice.advance^[n] V).count.toNat = _
  induction n generalizing V with
  | zero =>
    have := V.count.isLt
    simp only [Function.iterate_zero, id]
    omega
  | succ n ih =>
    rw [Function.iterate_succ_apply,
      ih V.advance (by rw [advance_pitchBend, hbend]) (by rw [advance_mod, hmod]),
      advance_count_neutral hbend hmod, advance_frequency, Nat.add_mul, Nat.one_mul]
    omega

/-! ### The envelope over many ticks -/

/-- The voice is in this stage of its envelope with the counter at `n`. -/
def AtStage (V : Voice) (stage : Adsr) (n : Nat) : Prop :=
  V.adsrState = stage ∧ V.envCount.toNat = n

/-- Each stage but SUSTAIN counts one tick (R125, R128, R130). -/
theorem atStage_advance {V : Voice} {stage : Adsr} {n : Nat} (h : AtStage V stage n)
    (hcounts : stage ≠ .sustain) :
    if 16383 ≤ n then AtStage V.advance stage.following 0 else AtStage V.advance stage (n + 1) := by
  obtain ⟨hstage, rfl⟩ := h
  obtain ⟨next, hnext, target, value, hstep⟩ : ∃ next, next = stage.following ∧ ∃ target value,
      V.envelopeStep =
        if 16383 < V.nextEnvCount then V.enterStage next target else V.stayInStage value := by
    cases stage with
    | sustain => exact absurd rfl hcounts
    | attack => exact ⟨_, rfl, _, _, envelopeStep_attack hstage⟩
    | decay => exact ⟨_, rfl, _, _, envelopeStep_decay hstage⟩
    | release => exact ⟨_, rfl, _, _, envelopeStep_release hstage⟩
  have hadvance := advance_of_counting hstage hstep
  split
  · next hn =>
    rw [if_pos (show 16383 < V.nextEnvCount by unfold Voice.nextEnvCount; omega)] at hadvance
    obtain ⟨hafter, hcount, -⟩ := hadvance
    exact ⟨hafter.trans hnext, by rw [hcount]; rfl⟩
  · next hn =>
    rw [if_neg (show ¬ 16383 < V.nextEnvCount by unfold Voice.nextEnvCount; omega)] at hadvance
    obtain ⟨hafter, hcount, -⟩ := hadvance
    exact ⟨hafter, hcount⟩

/-- A counting stage that starts at counter 0 lasts 16383 ticks at least. -/
theorem atStage_iterate {V : Voice} {stage : Adsr} (h : AtStage V stage 0)
    (hcounts : stage ≠ .sustain) {n : Nat} (hn : n ≤ 16383) :
    AtStage (Voice.advance^[n] V) stage n := by
  induction n with
  | zero => exact h
  | succ n ih =>
    have hadvance := atStage_advance (ih (by omega)) hcounts
    rw [if_neg (by omega)] at hadvance
    rwa [Function.iterate_succ_apply']

/-- The next tick enters the stage after it. -/
theorem atStage_following {V : Voice} {stage : Adsr} (h : AtStage V stage 0)
    (hcounts : stage ≠ .sustain) : AtStage (Voice.advance^[16384] V) stage.following 0 := by
  have hadvance := atStage_advance (atStage_iterate h hcounts le_rfl) hcounts
  rw [if_pos le_rfl] at hadvance
  rwa [Function.iterate_succ_apply']

/-- With the gate off SUSTAIN lasts one tick (R129). -/
theorem atStage_release {V : Voice} {n : Nat} (h : AtStage V .sustain n) (hgate : V.gate = false) :
    AtStage V.advance .release 0 := by
  obtain ⟨hstage, -⟩ := h
  obtain ⟨-, -, hrest⟩ := sustainStageOfAVoice .sine V hstage
  rw [if_neg (by simp [hgate])] at hrest
  obtain ⟨hafter, hcount⟩ := hrest
  exact ⟨hafter, by rw [voiceStep_fst] at hcount; rw [hcount]; rfl⟩

theorem iterate_advance_gate (n : Nat) (V : Voice) : (Voice.advance^[n] V).gate = V.gate := by
  induction n with
  | zero => rfl
  | succ n ih => rw [Function.iterate_succ_apply', advance_gate, ih]

theorem iterate_advance_velocity (n : Nat) (V : Voice) :
    (Voice.advance^[n] V).velocity = V.velocity := by
  induction n with
  | zero => rfl
  | succ n ih => rw [Function.iterate_succ_apply', advance_velocity, ih]

/-- Settles O38: three counting stages of 16384 ticks (`atStage_iterate`, `atStage_following`) and
one tick of SUSTAIN (`atStage_release`) follow one another, so the tick `n` is counted from the
start of the stage it falls in. -/
theorem releasedVoiceCyclesIn49153Ticks : Obligations.ReleasedVoiceCyclesIn49153Ticks := by
  intro w V hstage hcount hgate n hn
  change let U := Voice.advance^[n] V; _
  intro U
  have attack : AtStage V .attack 0 := ⟨hstage, by rw [hcount]; rfl⟩
  have decay : AtStage (Voice.advance^[16384] V) .decay 0 := atStage_following attack nofun
  have sustain : AtStage (Voice.advance^[32768] V) .sustain 0 := by
    rw [Function.iterate_add_apply _ 16384 16384]
    exact atStage_following decay nofun
  have release : AtStage (Voice.advance^[32769] V) .release 0 := by
    rw [Function.iterate_succ_apply']
    exact atStage_release sustain (by rw [iterate_advance_gate, hgate])
  split
  · exact atStage_iterate attack nofun (by omega)
  split
  · have h := atStage_iterate decay nofun (n := n - 16384) (by omega)
    rwa [← Function.iterate_add_apply, Nat.sub_add_cancel (by omega)] at h
  split
  · next hlast =>
    subst hlast
    exact ⟨sustain.1, BitVec.eq_of_toNat_eq sustain.2⟩
  split
  · have h := atStage_iterate release nofun (n := n - 32769) (by omega)
    rwa [← Function.iterate_add_apply, Nat.sub_add_cancel (by omega)] at h
  · obtain rfl : n = 16384 + 32769 := by omega
    have h := atStage_following release nofun
    rw [← Function.iterate_add_apply] at h
    exact ⟨h.1, BitVec.eq_of_toNat_eq h.2⟩

/-! ### A run of ticks -/

/-- A running block that is offered `n` ticks makes `n` ticks in `n` steps. -/
theorem run_ticks (n : Nat) (s : State) (es : List Event) (hs : s.halted = false) :
    run n { s with inputs := List.replicate n .tick ++ es } =
      .next { tick^[n] s with inputs := es } := by
  induction n generalizing s with
  | zero => exact run_zero _
  | succ n ih =>
    have hstep : step { s with inputs := .tick :: (List.replicate n .tick ++ es) } =
        .next { tick s with inputs := List.replicate n .tick ++ es } := by
      rw [step_running_cons _ _ hs]
      exact whenRunning_running tick _ hs
    rw [List.replicate_succ, List.cons_append, run_succ n hstep, ih (tick s) hs,
      Function.iterate_succ_apply]

/-- On an enabled channel `n` ticks advance a voice `n` times. -/
theorem voice?_ticks (n : Nat) {s : State} {c v : Nat} {r : ChannelRegs} {V : Voice}
    (hr : s.regs? c = some r) (hon : r.enable = true) (hV : s.voice? c v = some V) :
    (tick^[n] s).voice? c v = some (Voice.advance^[n] V) := by
  induction n generalizing s r V with
  | zero => exact hV
  | succ n ih =>
    obtain ⟨x, hx⟩ := regs?_tick s c r hr
    rw [if_pos hon] at hx
    rw [Function.iterate_succ_apply, Function.iterate_succ_apply]
    exact ih hx hon (by rw [voice?_tick s c v r hr, if_pos hon, hV]; rfl)

/-- A run of `n` steps that is offered `n` ticks leaves a voice of an enabled channel advanced `n`
times. -/
theorem run_ticks_voice (n : Nat) {s : State} {c v : Nat} {r : ChannelRegs} {V : Voice}
    (hs : s.halted = false) (hr : s.regs? c = some r) (hon : r.enable = true)
    (hV : s.voice? c v = some V) {es : List Event}
    (hinputs : s.inputs = List.replicate n .tick ++ es) :
    ∃ t, run n s = .next t ∧ t.voice? c v = some (Voice.advance^[n] V) ∧ t.inputs = es := by
  have hrun := run_ticks n s es hs
  rw [← hinputs] at hrun
  exact ⟨_, hrun, voice?_ticks n hr hon hV, rfl⟩

/-- The tick that exhausts the counter of ATTACK takes the attack target as start point (R126). -/
theorem attack_ends {V : Voice} (h : AtStage V .attack 16383) :
    V.advance.adsrState = .decay ∧ V.advance.envCount = 0 ∧
      V.advance.envStart = 1023 * 1016 * (V.velocity.toNat : Int) / 2 ^ 17 + 8 := by
  obtain ⟨hstage, hcount⟩ := h
  have hstep := attackStageOfAVoice .sine V hstage
  rw [hcount] at hstep
  obtain ⟨hdecay, hzero, hstart, -⟩ := (if_pos (by decide)).mp hstep
  exact ⟨hdecay, hzero, hstart⟩

/-- Settles O39: the run advances the voice once a step (`run_ticks_voice`), through a whole stage
(`atStage_iterate`) and out of it (`attack_ends`). -/
theorem runOfOneStageReachesDecay : Obligations.RunOfOneStageReachesDecay := by
  intro s c v r V es hs hr hon hV hstage hcount hinputs
  have attack : AtStage V .attack 0 := ⟨hstage, by rw [hcount]; rfl⟩
  have last : AtStage (Voice.advance^[16383] V) .attack 16383 :=
    atStage_iterate attack nofun le_rfl
  constructor
  · have hsplit : s.inputs = List.replicate 16383 .tick ++ .tick :: es := by
      rw [hinputs, List.replicate_succ', List.append_assoc]
      rfl
    obtain ⟨t, hrun, hvoice, -⟩ := run_ticks_voice 16383 hs hr hon hV hsplit
    exact ⟨t, _, hrun, hvoice, last.1⟩
  · obtain ⟨t, hrun, hvoice, hrest⟩ := run_ticks_voice 16384 hs hr hon hV hinputs
    obtain ⟨hdecay, hzero, hstart⟩ := attack_ends last
    rw [iterate_advance_velocity] at hstart
    rw [Function.iterate_succ_apply'] at hvoice
    exact ⟨t, _, hrun, hvoice, hrest, hdecay, hzero, hstart⟩

end Sys2Proof.Proofs
end

section
/-! Data bytes, and a NOTE_ON message byte by byte (spec/42_midi.md sections 1, 2 and 4). -/

namespace Sys2Proof.Proofs

open Sys2Proof.Machine

/-! ### Data bytes -/

/-- Settles O43: the data byte is the first of two (`takeData_first`). -/
theorem firstDataByteIsHeld : Obligations.FirstDataByteIsHeld := by
  intro s d hs hdata hneed
  have heffect : effect (.dataByte d) s = takeData d s := byteEffect_data d (fun s => s) hdata
  rw [exec_running _ _ hs, heffect, takeData_first d s hneed]

/-- In `DATA` every instruction that a byte encodes takes the low 7 bits of that byte as data
(R206, R231). -/
theorem effect_of_byte_in_data {s : State} {i : Instr} {b : MidiByte}
    (hdata : s.framing.mpState = .data) (hb : encode i = .midi b) :
    effect i s = takeData (maskData b) s := by
  have hstatus : ∀ t x, statusByteOf t x = b → statusEffect t x s = takeData (maskData b) s := by
    rintro t x rfl
    exact byteEffect_data _ _ hdata
  have hlow : ∀ d, dataByteOf d = b → byteEffect d (fun s => s) s = takeData (maskData b) s := by
    rintro d rfl
    rw [maskData_dataByteOf]
    exact byteEffect_data d _ hdata
  cases i with
  | nop | enable | disable | setWaveform | setVolume | voiceOn | voiceOff | voiceFrequency
  | voiceModulation | voiceVelocity | voicePitchBend | updateAll | reservedCF => cases hb
  | terminator => exact hlow 0 (Event.midi.inj hb)
  | strayData d | dataByte d => exact hlow d (Event.midi.inj hb)
  | _ => exact hstatus _ _ (Event.midi.inj hb)

/-- Settles O48: in `DATA` both instructions take the same 7 bits as data
(`effect_of_byte_in_data`). -/
theorem everyByteInDataPositionIsData : Obligations.EveryByteInDataPositionIsData := by
  intro s i b hdata hb
  have hbyte : effect i s = takeData (maskData b) s := effect_of_byte_in_data hdata hb
  have hlow : effect (.dataByte (maskData b)) s = takeData (maskData b) s :=
    byteEffect_data (maskData b) (fun s => s) hdata
  rw [← maskData_eq, exec_eq, exec_eq]
  simp only [whenRunning, hbyte, hlow]

/-! ### A message as a run -/

/-- In `DATA` the machine's step takes the byte as data. -/
theorem step_dataByte {s : State} {b : MidiByte} {es : List Event} (hs : s.halted = false)
    (hdata : s.framing.mpState = .data) (hinputs : s.inputs = .midi b :: es) :
    step s = exec (.dataByte (maskData b)) { s with inputs := es } := by
  rw [step_running hs hinputs]
  exact takeEvent_of_decode (by rw [hdata]; rfl)

/-- The first of two data bytes is held. -/
theorem step_firstDataByte {s : State} {b : MidiByte} {es : List Event} (hs : s.halted = false)
    (hdata : s.framing.mpState = .data) (hneed : s.framing.mpNeed = 2)
    (hinputs : s.inputs = .midi b :: es) :
    step s = .next
      { s with inputs := es, framing := { s.framing with mpD1 := maskData b, mpNeed := 1 } } := by
  rw [step_dataByte hs hdata hinputs]
  exact firstDataByteIsHeld { s with inputs := es } (maskData b) hs hdata hneed

/-- The framing of a NOTE_ON message with so many data bytes to come and the first byte held. -/
def noteOnFraming (sub : Nibble) (need : Fin 3) (d1 : Data7) : Framing where
  mpState := .data
  mpType := 0x9
  mpSub := sub
  mpNeed := need
  mpD1 := d1

/-- In `IDLE` the status byte of NOTE_ON opens a message of two data bytes (R201, R209). -/
theorem step_noteOnStatus {s : State} {sub : Nibble} {es : List Event} (hs : s.halted = false)
    (hidle : s.framing.mpState = .idle) (hinputs : s.inputs = .midi (statusByteOf 0x9 sub) :: es) :
    step s = .next { s with inputs := es, framing := noteOnFraming sub 2 s.framing.mpD1 } := by
  have hdec : decodeIdleByte (statusByteOf 0x9 sub) = .noteOn sub := by simp [decodeIdleByte]
  rw [step_running hs hinputs,
    takeEvent_of_decode (s := { s with inputs := es }) (by rw [hidle]; exact congrArg _ hdec)]
  exact exec_idleStatusByte_opens hs hidle hdec rfl (by decide)

/-- A NOTE_ON message from `IDLE`: three steps, of which the last starts voice 0. -/
theorem run_noteOn {s : State} {sub : Nibble} {key vel : MidiByte} {es : List Event}
    (hs : s.halted = false) (hidle : s.framing.mpState = .idle)
    (hinputs : s.inputs = .midi (statusByteOf 0x9 sub) :: .midi key :: .midi vel :: es) :
    ∃ t, run 3 s = .next t ∧ t.framing.mpState = .idle ∧
      ChangesOnlyVoice { s with inputs := es } t (midiChannel sub) 0 fun V =>
        { V with
          gate := true, count := 0, modCount := 0, envCount := 0, adsrState := .attack
          frequency := Config.noteFreq (maskData key), velocity := maskData vel } := by
  have hstatus := step_noteOnStatus hs hidle hinputs
  have hkey : step { s with
        inputs := .midi key :: .midi vel :: es, framing := noteOnFraming sub 2 s.framing.mpD1 } =
      .next { s with inputs := .midi vel :: es, framing := noteOnFraming sub 1 (maskData key) } :=
    step_firstDataByte hs rfl rfl rfl
  have hvel : step { s with
        inputs := .midi vel :: es, framing := noteOnFraming sub 1 (maskData key) } =
      exec (.dataByte (maskData vel))
        { s with inputs := es, framing := noteOnFraming sub 1 (maskData key) } :=
    step_dataByte hs rfl rfl
  obtain ⟨t, hlast, hframing, hchange⟩ := noteOnDispatch
    { s with inputs := es, framing := noteOnFraming sub 1 (maskData key) }
    (maskData vel) (midiChannel sub) hs rfl rfl rfl rfl
  refine ⟨t, ?_, by rw [hframing], ?_⟩
  · rw [run_succ 2 hstatus, run_succ 1 hkey, run_succ 0 (hvel.trans hlast), run_zero]
  · exact ⟨hchange.changed, hchange.otherVoices, hchange.regs, hchange.halted, hchange.inputs⟩

/-- Settles O49: the byte 0x90 + c is the status byte of NOTE_ON on channel `c`, and `run_noteOn` is
the rest. -/
theorem noteOnMessageStartsVoiceZero : Obligations.NoteOnMessageStartsVoiceZero := by
  intro s c key vel es hs hidle hc hinputs
  have hsub : (BitVec.ofNat 4 c).toNat = c := by rw [BitVec.toNat_ofNat]; omega
  have hstatus : BitVec.ofNat 8 (0x90 + c) = statusByteOf 0x9 (BitVec.ofNat 4 c) := by
    rw [← ofNat_eq_statusByteOf, hsub]
    rfl
  have hchannel : midiChannel (BitVec.ofNat 4 c) = c := by
    rw [midiChannel, hsub]
    exact if_pos hc
  rw [hstatus] at hinputs
  obtain ⟨t, hrun, hframing, hchange⟩ := run_noteOn hs hidle hinputs
  rw [hchannel] at hchange
  have hplace : c < 7 ∧ 0 < Config.nv c := ⟨hc, by rw [nv_eq]; split <;> decide⟩
  obtain ⟨V, hV⟩ := Option.isSome_iff_exists.1 ((voice?_isSome s c 0).2 hplace)
  have hU : t.voice? c 0 = (s.voice? c 0).map _ := hchange.changed
  rw [hV, Option.map_some, maskData_eq, maskData_eq] at hU
  exact ⟨t, V, _, hrun, hchange.inputs, hframing, hV, hU, rfl, hchange.otherVoices, hchange.regs⟩

end Sys2Proof.Proofs
end
